-- ==== Sys2Proof/Word.lean ====
section
/-! DEFINITION. The widths the spec fixes: bytes, 32-bit words, 4-bit condition codes (00_scope.md R8, R9). -/

namespace Sys2Proof

/-- One byte of instruction memory. -/
abbrev Byte := BitVec 8

/-- A 32-bit value: DBGDSCR's read view, a general register, the pc, the DTRs, DBGITR (R8: XLEN, W_DTR, W_ITR). -/
abbrev Word := BitVec 32

/-- The `cond` field of an instruction word (30_encoding.md R71). -/
abbrev Cond := BitVec 4

end Sys2Proof
end

