-- ==== Sys2Proof/Config.lean ====
section
/-! DEFINITION. The implementation parameters of 00_scope.md R8, and the free values (`DRAW`, R9). -/

namespace Sys2Proof

/-- Byte order of instruction fetch: the parameter `INSTR_ENDIAN` (20_memory.md R61, D24). -/
inductive Endian where
  | little
  | big
deriving DecidableEq, Repr

/-- What bits 27 and 26 show to a CP14 read: the parameter `CP14_LATCH_VIEW` (10_state.md R50, D7). -/
inductive LatchView where
  | live
  | draw
deriving DecidableEq, Repr

/-- A User mode write over CP14 while `comms` is 0: the parameter `USER_DSCR_WRITE` (60_exceptions.md R171, D20). -/
inductive UserWrite where
  | permitted
  | undefinedInstruction
deriving DecidableEq, Repr

/-- The parameters of R8 that a claim must admit every value of. The machine carries one such record, which no
step changes (log entry 3). -/
structure Config where
  /-- `W_OPEN` as a mask: bit `i` is set when `i` is in the set. Only bits of `openMask` count (10_state.md R35). -/
  wOpen : Word
  /-- `W_IFACE_EQUAL`: both interfaces store the same bits (R35, D4). -/
  wIfaceEqual : Bool
  /-- DESIGN CHOICE (log entry 4): the APB write's own set, read only when `wIfaceEqual` is false. -/
  wOpenApb : Word
  /-- `CP14_LATCH_VIEW`. -/
  cp14LatchView : LatchView
  /-- `LOCKED_READ_LATCHES` (41_dtr_access_mode.md R101, D9). -/
  lockedReadLatches : Bool
  /-- `USER_DSCR_WRITE`. -/
  userDscrWrite : UserWrite
  /-- `PROC_RESET_RESETS_CONTROL` (70_reset_and_hazards.md R192, D19). -/
  procResetResetsControl : Bool
  /-- `INSTR_ENDIAN`. -/
  instrEndian : Endian
deriving DecidableEq, Repr

/-- The spec's values (R8). DESIGN CHOICE (log entry 3) for the two parameters of which R8 says that both values
must be admitted: `userDscrWrite` and `procResetResetsControl`; unsafe for a claim about this record alone. -/
def Config.spec : Config where
  wOpen := 0#32
  wIfaceEqual := true
  wOpenApb := 0#32
  cp14LatchView := .live
  lockedReadLatches := false
  userDscrWrite := .permitted
  procResetResetsControl := false
  instrEndian := .little

/-- `ILEN`: what the pc advances over a completed MRC or MCR (10_state.md R47, D23). -/
def Config.ilen : Word := 4#32

/-- `DRAW`: the value under no law that the `n`-th draw of a run gives (R9, D33). It has no body, so a claim that
is proved holds for every draw. A narrower draw is a slice of it (log entry 2). -/
opaque Config.freeWord : Nat → Word

/-- `DSCR_APB_OFFSET`, OPEN: the address of DBGDSCR on the APB port. The model names registers instead (D32, log
entry 24). -/
opaque Config.dscrApbOffset : Nat

end Sys2Proof
end

