-- ==== Sys2Proof/Syntax.lean ====
section
/-! DEFINITION. The two instructions of spec/opcode_table.json (30_encoding.md R70 to R72). -/

namespace Sys2Proof

/-- The operand `<Rd>` (30_encoding.md R74): general register 0 to 14, or the number 15, to which the spec gives
no register. -/
inductive Rd where
  | gpr (i : Fin 15)
  | r15
deriving DecidableEq, Repr

/-- One constructor per row of the opcode table. `cond` is the condition under which the instruction executes. -/
inductive Instr where
  /-- `MRC p14, 0, <Rd>, c0, c1, 0`: read DBGDSCR (40_cp14_access.md R81). -/
  | mrcDbgdscr (cond : Cond) (rd : Rd)
  /-- `MCR p14, 0, <Rd>, c0, c1, 0`: write DBGDSCR (40_cp14_access.md R82). -/
  | mcrDbgdscr (cond : Cond) (rd : Rd)
deriving DecidableEq, Repr

/-- The condition field of an instruction. -/
def Instr.cond : Instr → Cond
  | .mrcDbgdscr c _ => c
  | .mcrDbgdscr c _ => c

/-- The register operand of an instruction. -/
def Instr.rd : Instr → Rd
  | .mrcDbgdscr _ r => r
  | .mcrDbgdscr _ r => r

end Sys2Proof
end

