-- ==== Sys2Proof/WellFormed.lean ====
section
/-! DEFINITION. Which terms of `Instr` an instruction word can stand for. -/

namespace Sys2Proof

/-- `cond = 0b1111` does not select these instructions (30_encoding.md R72, R75). `Rd = 15` is an encoding of the
row, refused only when the instruction executes (R74, R80), so it is well-formed. -/
def Instr.wf : Instr → Bool
  | .mrcDbgdscr c _ => c != 0b1111#4
  | .mcrDbgdscr c _ => c != 0b1111#4

end Sys2Proof
end

