-- ==== Sys2Proof/Decode.lean ====
section
/-! DEFINITION. The decoder, total on any bytes, and the encoder (30_encoding.md R71 to R78). The bit positions are
PRESUMED by the spec itself (general knowledge, R71, log entry 20); the operand values are the source's. -/

namespace Sys2Proof

/-- Why bytes are no instruction in scope. All three end in `REFUSE(not_in_scope)`. -/
inductive DecodeReject where
  /-- Fewer than the four bytes of an instruction (R78). -/
  | tooShort
  /-- `cond = 0b1111`, the unconditional space (R75). -/
  | unconditional
  /-- A word that matches neither row of the table (R76). -/
  | notInTable
deriving DecidableEq, Repr

/-- The bits of a word that the two rows fix: the rows' `mask` (R72). -/
def rowMask : Word := 0x0FFF0FFF#32

/-- The row MRC_DBGDSCR's `match` (R72). -/
def mrcMatch : Word := 0x0E100E11#32

/-- The row MCR_DBGDSCR's `match` (R72). -/
def mcrMatch : Word := 0x0E000E11#32

/-- Bits 31:28 of an instruction word. -/
def condField (w : Word) : Cond := w.extractLsb' 28 4

/-- Bits 15:12 of an instruction word. -/
def rdField (w : Word) : BitVec 4 := w.extractLsb' 12 4

/-- The register operand a four-bit number names (R74). -/
def rdOfNumber (n : BitVec 4) : Rd :=
  if h : n.toNat < 15 then .gpr ⟨n.toNat, h⟩ else .r15

/-- The number of a register operand. -/
def numberOfRd : Rd → BitVec 4
  | .gpr i => BitVec.ofNat 4 i.val
  | .r15 => 0b1111#4

/-- The instruction a 32-bit word stands for (R72, R75, R76). -/
def decodeWord (w : Word) : Except DecodeReject Instr :=
  if condField w = 0b1111#4 then .error .unconditional
  else if w &&& rowMask = mrcMatch then .ok (.mrcDbgdscr (condField w) (rdOfNumber (rdField w)))
  else if w &&& rowMask = mcrMatch then .ok (.mcrDbgdscr (condField w) (rdOfNumber (rdField w)))
  else .error .notInTable

/-- The word four bytes hold, the byte at the lowest address first (20_memory.md R61). -/
def wordOfBytes (e : Endian) (b0 b1 b2 b3 : Byte) : Word :=
  match e with
  | .little => b3 ++ b2 ++ b1 ++ b0
  | .big => b0 ++ b1 ++ b2 ++ b3

/-- Byte `k` of a word, byte 0 the least significant. -/
def byteOfWord (w : Word) (k : Nat) : Byte := w.extractLsb' (8 * k) 8

/-- The four bytes of a word as memory holds them, the byte at the lowest address first (20_memory.md R61). -/
def bytesOfWord (e : Endian) (w : Word) : List Byte :=
  match e with
  | .little => [byteOfWord w 0, byteOfWord w 1, byteOfWord w 2, byteOfWord w 3]
  | .big => [byteOfWord w 3, byteOfWord w 2, byteOfWord w 1, byteOfWord w 0]

/-- The instruction at the head of a list of bytes and the bytes after it; an instruction in scope is always four
bytes long (R78). -/
def decode (e : Endian) : List Byte → Except DecodeReject (Instr × List Byte)
  | b0 :: b1 :: b2 :: b3 :: rest =>
    match decodeWord (wordOfBytes e b0 b1 b2 b3) with
    | .ok i => .ok (i, rest)
    | .error r => .error r
  | _ => .error .tooShort

/-- Place a condition and a register number into a row's `match` (R71). -/
def encodeRow (pattern : Word) (c : Cond) (r : Rd) : Word :=
  pattern ||| (c.zeroExtend 32 <<< 28) ||| ((numberOfRd r).zeroExtend 32 <<< 12)

/-- The word of an instruction (R72). -/
def encode : Instr → Word
  | .mrcDbgdscr c r => encodeRow mrcMatch c r
  | .mcrDbgdscr c r => encodeRow mcrMatch c r

/-- The bytes of an instruction as memory holds them. -/
def encodeBytes (e : Endian) (i : Instr) : List Byte := bytesOfWord e (encode i)

/-- The instruction the decoder reads from an opcode-table word of `nbits` bits, laid out in memory as the spec's
value of `INSTR_ENDIAN` has it. -/
def decodeTableWord (nbits w : Nat) : Option Instr :=
  match decode .little (bytesOfWord .little (BitVec.ofNat 32 (w % 2 ^ nbits))) with
  | .ok (i, _) => some i
  | .error _ => none

end Sys2Proof
end

