-- ==== Sys2Proof/Machine/State.lean ====
section
/-! DEFINITION. Everything the machine holds, as plain data; its faults and refusals; its state after reset. -/

namespace Sys2Proof.Machine

/-- Why the machine stops with a fault. -/
inductive Fault where
  /-- Raised by the fetch (20_memory.md R62) when no program byte has been placed at the address. Safe: the model
  stops where the hardware reads whatever its memory holds (log entry 7). -/
  | fetchUnwritten (addr : Nat)
deriving DecidableEq, Repr

/-- Why a step has no meaning: the spec's `REFUSE(reason)` (00_scope.md R9), and two reasons of the model's own. -/
inductive Refusal where
  /-- Raised by an arm of `exec` that has no meaning yet. No arm does. Safe. -/
  | notModelled (mnemonic : String)
  /-- Raised by the meanings when the condition passes and `<Rd>` is 15 (30_encoding.md R74). Safe. -/
  | rdIs15
  /-- Raised for a word that is neither instruction, at `pc` or in DBGITR, and for condition 0b1111 (R75, R76,
  R150). Safe. -/
  | notInScope
  /-- Raised by the fetch when `pc[1:0]` is not 0b00 (20_memory.md R62). Safe. -/
  | misalignedPc
  /-- Raised by a write of DBGDSCR with a reserved bit set (10_state.md R12, R52). Safe. -/
  | sbzpViolated
  /-- Raised by a write of DBGDSCR that carries mode 0b11, and by a debugger access made in that mode (R19, R52,
  R114). Safe. -/
  | reservedDtrMode
  /-- Raised by a write of DBGDSCR, an exit from debug state or a processor reset that would leave `itr_en = 1`
  outside debug state (R24, R52, R145, R192). Safe. -/
  | itrEnOutsideDebugState
  /-- Raised by a debugger access with `locked = 1` and PADDRDBG31 = 0, but for the read of DBGDSCR (R120). Safe. -/
  | lockedAccess
  /-- Raised by a debugger write of DBGITR while `halted = 0` (R105, R110, R113). Safe. -/
  | itrWriteOutsideDebugState
  /-- Raised by a debugger write of DBGITR that would issue while `itr_en = 0` (R105, R110). Safe. -/
  | itrWriteWhileDisabled
  /-- Raised by a Fast mode DTR transfer while `halted = 0` or `itr_en = 0` (R111, R112). Safe. -/
  | fastIssueNotEnabled
  /-- Raised by a Fast mode DTR transfer while `instrcompl = 0` (R111, R112). Safe. -/
  | fastIssueWhileBusy
  /-- Raised by a debug event to which the source gives no outcome (42_hardware_events.md R146). Safe. -/
  | debugEventOutcomeNotInSource
  /-- Raised by the processor's turn in normal state while a trap waits to be handed to a processor model from
  elsewhere (60_exceptions.md R172). The model's own. Safe (log entry 11). -/
  | exceptionEntryNotInSource
  /-- Raised by a scheduled event whose precondition is false: the schedule is no run. The model's own. Safe (log
  entry 15). -/
  | eventNotEnabled
deriving DecidableEq, Repr

/-- The record of fields that DBGDSCR is (10_state.md R11), a Bool for a bit. -/
structure DscrState where
  /-- bit 30 (R13) -/
  rxfull : Bool
  /-- bit 29 (R14) -/
  txfull : Bool
  /-- bit 27, the latched copy (R15) -/
  rxfullL : Bool
  /-- bit 26, the latched copy (R16) -/
  txfullL : Bool
  /-- bit 25 (R17) -/
  pipeadv : Bool
  /-- hidden, the live instruction-complete flag (R40) -/
  instrcompl : Bool
  /-- bit 24 (R18) -/
  instrcomplL : Bool
  /-- bits 21:20 (R19) -/
  dtrAccess : BitVec 2
  /-- bit 19 (R20) -/
  adadiscard : Bool
  /-- bit 15 as programmed (R21, R41) -/
  monProg : Bool
  /-- bit 14 as programmed (R22, R41) -/
  haltProg : Bool
  /-- bit 13 (R24) -/
  itrEn : Bool
  /-- bit 12 (R25) -/
  comms : Bool
  /-- bit 11 (R26) -/
  intdis : Bool
  /-- bit 10 (R27) -/
  dbgack : Bool
  /-- bit 8 (R28) -/
  stickyUnd : Bool
  /-- bit 7 (R29) -/
  stickyAabt : Bool
  /-- bit 6 (R30) -/
  stickySabt : Bool
  /-- bits 5:2 (R31) -/
  moe : BitVec 4
  /-- bit 1 (R32) -/
  restarted : Bool
  /-- bit 0 (R33) -/
  halted : Bool
deriving DecidableEq, Repr

/-- The modes the two enables select (10_state.md R23). -/
inductive DebugMode where
  | noDebugMode
  | monitor
  | halting
deriving DecidableEq, Repr

/-- The DTR access modes (10_state.md R19, 41_dtr_access_mode.md R100). -/
inductive DtrMode where
  | nonBlocking
  | stall
  | fast
  | reserved
deriving DecidableEq, Repr

/-- The kinds of debug event (42_hardware_events.md R146). `unlisted` is a kind with one of the reserved codes. -/
inductive DebugKind where
  | haltRequest
  | breakpoint
  | bkptInstruction
  | externalRequest
  | syncWatchpoint
  | unlisted (code : BitVec 4)
deriving DecidableEq, Repr

/-- What the processor takes (60_exceptions.md R170). -/
inductive TrapKind where
  | undefinedInstruction
  | prefetchAbort
  | dataAbort
  /-- An asynchronous Data Abort "handled as normal" (R152). -/
  | asyncDataAbort
deriving DecidableEq, Repr

/-- The abstract trap of 60_exceptions.md R172: what was taken and the pc of the instruction. -/
structure Trap where
  kind : TrapKind
  pc : Word
deriving DecidableEq, Repr

/-- The instruction fetched from DBGITR and how far it is (42_hardware_events.md R150, R151; log entry 13). -/
inductive IssueStage where
  /-- No instruction from DBGITR is in the processor. -/
  | idle
  /-- `Issue(w)` has happened; `w` has had no effect yet. -/
  | begun (w : Word)
  /-- The instruction has had its effect; `IssueComplete` is to come. -/
  | executed
  /-- The instruction ended in an exception; `IssueComplete` is to come, without retirement. -/
  | excepted
deriving DecidableEq, Repr

/-- The two kinds of CP14 access the access check tells apart (60_exceptions.md R171). -/
inductive AccessKind where
  | read
  | write
deriving DecidableEq, Repr

/-- The debugger's accesses through the APB port (41_dtr_access_mode.md R101 to R118), each with its PADDRDBG31. -/
inductive ApbAccess where
  | readDscr (p31 : Bool)
  | writeDscr (d : Word) (p31 : Bool)
  | writeDtrrx (d : Word) (p31 : Bool)
  | readDtrtx (p31 : Bool)
  | writeItr (d : Word) (p31 : Bool)
  | writeDrcr (d : Word) (p31 : Bool)
deriving DecidableEq, Repr

/-- What a completed access gives the debugger. A write that was ignored looks like one that succeeded: there is no
error indication (R103). -/
inductive ApbReply where
  | written
  | value (v : Word)
deriving DecidableEq, Repr

/-- The events of 42_hardware_events.md and 70_reset_and_hazards.md, and the inputs of R5 (log entry 26). -/
inductive Event where
  /-- R140 -/
  | retire
  /-- R141, with the destination register -/
  | procReadDtrrx (rd : Fin 15)
  /-- R142, with the word written -/
  | procWriteDtrtx (v : Word)
  /-- R146 -/
  | debugEvent (k : DebugKind)
  /-- R144 -/
  | beginExit
  /-- R145 -/
  | completeExit
  /-- R148 -/
  | undefInDebugState
  /-- R149 -/
  | syncAbortInDebugState
  /-- R151 -/
  | issueComplete
  /-- R152; `endsIssued` says whether an abort handled as normal in debug state ends the issued instruction, which
  the source leaves outside (log entry 12) -/
  | asyncAbort (endsIssued : Bool)
  /-- R153 -/
  | setDbgen (b : Bool)
  /-- R156 -/
  | setLocked (b : Bool)
  /-- The level of the IRQ input (R45, R176). -/
  | setIrq (b : Bool)
  /-- The level of the FIQ input (R45, R176). -/
  | setFiq (b : Bool)
  /-- The level the core drives on DBGACK by itself (R155). -/
  | setCoreDbgack (b : Bool)
  /-- The input `user` (R178). -/
  | setUser (b : Bool)
  /-- The input `ConditionPassed` (R75). -/
  | setConds (c : BitVec 14)
  /-- R191 -/
  | debugReset
  /-- R192 -/
  | processorReset
  /-- The rest of the processor has run and leaves these registers, this pc and this mode (R5, R172, R173). -/
  | outsideProcessor (x : Vector Word 15) (pc : Word) (user : Bool)
  /-- The rest of the processor, or a loader, stores a byte (R5). -/
  | outsideStore (addr : Word) (b : Byte)
deriving DecidableEq, Repr

/-- Whose step it is (00_scope.md R7, 20_memory.md R66). -/
inductive Turn where
  /-- The processor executes one instruction. -/
  | proc
  /-- The debugger makes the access at the head of its queue. -/
  | dbg
  /-- An event of the processor, the pins, the lock or a reset. -/
  | event (e : Event)
deriving DecidableEq, Repr

/-- Instruction memory: address and byte pairs, addresses strictly rising. An unlisted address has no value (log
entry 7). -/
abbrev Memory := List Host.Cell

/-- The whole machine. -/
structure State where
  /-- The parameters of R8, which no step changes. -/
  cfg : Config
  /-- The general registers x[0] to x[14] (10_state.md R47). -/
  x : Vector Word 15
  /-- The program counter (R47). -/
  pc : Word
  /-- DBGDSCR (R11). -/
  dscr : DscrState
  /-- DBGDTRRX (R42). -/
  dtrrx : Word
  /-- DBGDTRTX (R42). -/
  dtrtx : Word
  /-- DBGITR (R42). -/
  itr : Word
  /-- The input DBGEN, true for HIGH (R45). -/
  dbgen : Bool
  /-- The locked bit of DBGLSR (R44). -/
  locked : Bool
  /-- Whether the processor is in User mode (R46, R178). -/
  user : Bool
  /-- The input IRQ (R45). -/
  irq : Bool
  /-- The input FIQ (R45). -/
  fiq : Bool
  /-- The level the core drives on DBGACK by itself (R155). -/
  coreDbgack : Bool
  /-- Bit `c` is the outcome of `ConditionPassed(c)`, `c` from 0b0000 to 0b1101 (30_encoding.md R75). -/
  conds : BitVec 14
  /-- Instruction memory (20_memory.md R62). -/
  mem : Memory
  /-- The instruction fetched from DBGITR (R150, R151). -/
  issue : IssueStage
  /-- Traps taken and not yet handed over, the oldest first (R172). -/
  handover : List Trap
  /-- The debugger's accesses still to make, in its program order (R66). -/
  dbgQueue : List ApbAccess
  /-- Whether the head of `dbgQueue` is being held on the port (R119), as an observer of the port sees it: the access is
  tried again at each turn of the debugger, so no rule reads this bit. -/
  portHeld : Bool
  /-- What the last completed access gave the debugger. -/
  reply : Option ApbReply
  /-- The turns still to come; when there is none the processor acts (log entry 9). -/
  sched : List Turn
  /-- How many draws the run has made (log entry 2). -/
  draws : Nat
deriving DecidableEq, Repr

/-- DBGDSCR after both resets (10_state.md R53, 70_reset_and_hazards.md R194): `rxfull`, `txfull`, `dtrAccess`,
`monProg` to `dbgack`, `restarted` and `halted` as the spec states them. DESIGN CHOICE (log entry 5) for the fields
with no stated value: those of the base state S0 of 95_test_vectors.md, zero but for `instrcompl`. -/
def DscrState.reset : DscrState where
  rxfull := false
  txfull := false
  rxfullL := false
  txfullL := false
  pipeadv := false
  instrcompl := true
  instrcomplL := false
  dtrAccess := 0b00#2
  adadiscard := false
  monProg := false
  haltProg := false
  itrEn := false
  comms := false
  intdis := false
  dbgack := false
  stickyUnd := false
  stickyAabt := false
  stickySabt := false
  moe := 0b0000#4
  restarted := true
  halted := false

/-- The machine right after reset. DBGDSCR as `DscrState.reset`; DESIGN CHOICE for the rest, which the spec gives
no value: the parameters (log entry 3), neighbour registers (5), processor and inputs (6), condition outcomes (1).
Memory lists nothing. -/
def State.reset : State where
  cfg := .spec
  x := Vector.replicate 15 0#32
  pc := 0#32
  dscr := .reset
  dtrrx := 0#32
  dtrtx := 0#32
  itr := 0#32
  dbgen := true
  locked := false
  user := false
  irq := false
  fiq := false
  coreDbgack := false
  conds := 0x3FFF#14
  mem := []
  issue := .idle
  handover := []
  dbgQueue := []
  portHeld := false
  reply := none
  sched := []
  draws := 0

/-- What an access of the debugger comes to (00_scope.md R9). -/
inductive ApbOutcome where
  /-- It completes and has its effect. -/
  | done (s : State) (r : ApbReply)
  /-- `IGNORED`: it completes and changes nothing but the draw counter. -/
  | ignored (s : State) (r : ApbReply)
  /-- `HOLD`: it has not happened and may happen later. -/
  | hold
  /-- `REFUSE`. -/
  | refuse (r : Refusal)
deriving DecidableEq, Repr

end Sys2Proof.Machine
end

