-- ==== Sys2Proof/Machine/Flags.lean ====
section
/-! DEFINITION. What the fields of DBGDSCR mean and show: the masks of 10_state.md R35, the effective enables and
the debug-mode (R21 to R23), the read views (R50, R51), the outputs (R155, R176), the codes of R31. The register's
flags are the only flags: no rule writes a condition flag of the processor (40_cp14_access.md R86). -/

namespace Sys2Proof.Machine

/-- `RES_MASK`: the reserved bits (R12, R35). -/
def resMask : Word := 0x90C70200#32

/-- `W_SURE`: the control bits, which every write stores (R35). -/
def sureMask : Word := 0x0030FC00#32

/-- `RO_MASK`: the bits a write ignores (R35). -/
def roMask : Word := 0x03000003#32

/-- `OPEN_MASK`: the bits a write stores if they are in `W_OPEN` (R35). -/
def openMask : Word := 0x6C0801FC#32

/-- `W_OPEN` for the CP14 write. -/
def openCp14 (c : Config) : Word := c.wOpen &&& openMask

/-- `W_OPEN` for the APB write: the same set when `W_IFACE_EQUAL` (R35, D4; log entry 4 otherwise). -/
def openApb (c : Config) : Word := (if c.wIfaceEqual then c.wOpen else c.wOpenApb) &&& openMask

/-- A word with bit `i` equal to `b` and every other bit 0. -/
def bitAt (i : Nat) (b : Bool) : Word := if b then 1#32 <<< i else 0#32

/-- `mon_en`: bit 15 as seen and used (R21). -/
def State.monEn (s : State) : Bool := s.dbgen && s.dscr.monProg

/-- `halt_en`: bit 14 as seen and used (R22). -/
def State.haltEn (s : State) : Bool := s.dbgen && s.dscr.haltProg

/-- `debug_mode` (R23): bit 14 takes precedence. -/
def State.debugMode (s : State) : DebugMode :=
  if s.haltEn then .halting else if s.monEn then .monitor else .noDebugMode

/-- The mode in force for a debugger access (41_dtr_access_mode.md R100). -/
def dtrModeOf (f : BitVec 2) : DtrMode :=
  if f = 0b00#2 then .nonBlocking
  else if f = 0b01#2 then .stall
  else if f = 0b10#2 then .fast
  else .reserved

/-- The output DBGACK (42_hardware_events.md R155). -/
def State.dbgackOut (s : State) : Bool := s.dscr.dbgack || s.coreDbgack

/-- `IRQ_seen` (60_exceptions.md R176). -/
def State.irqSeen (s : State) : Bool := s.irq && !s.dscr.intdis

/-- `FIQ_seen` (R176). -/
def State.fiqSeen (s : State) : Bool := s.fiq && !s.dscr.intdis

/-- The value of bit 24 of a read view: the latch in debug state, bit 24 of the draw `d` outside it (R18, R50). -/
def shownInstrcompl (s : State) (d : Word) : Bool :=
  if s.dscr.halted then s.dscr.instrcomplL else d.getLsbD 24

/-- The layout of a read view (R10), with what bits 27, 26 and 24 show as arguments. -/
def dscrView (s : State) (b27 b26 b24 : Bool) : Word :=
  bitAt 30 s.dscr.rxfull ||| bitAt 29 s.dscr.txfull ||| bitAt 27 b27 ||| bitAt 26 b26 |||
  bitAt 25 s.dscr.pipeadv ||| bitAt 24 b24 ||| (s.dscr.dtrAccess.zeroExtend 32 <<< 20) |||
  bitAt 19 s.dscr.adadiscard ||| bitAt 15 s.monEn ||| bitAt 14 s.haltEn ||| bitAt 13 s.dscr.itrEn |||
  bitAt 12 s.dscr.comms ||| bitAt 11 s.dscr.intdis ||| bitAt 10 s.dscr.dbgack |||
  bitAt 8 s.dscr.stickyUnd ||| bitAt 7 s.dscr.stickyAabt ||| bitAt 6 s.dscr.stickySabt |||
  (s.dscr.moe.zeroExtend 32 <<< 2) ||| bitAt 1 s.dscr.restarted ||| bitAt 0 s.dscr.halted

/-- `DSCR_cp14` (R50), a pure function of the state, DBGEN and the draw `d`. -/
def dscrCp14 (s : State) (d : Word) : Word :=
  match s.cfg.cp14LatchView with
  | .live => dscrView s s.dscr.rxfull s.dscr.txfull (shownInstrcompl s d)
  | .draw => dscrView s (d.getLsbD 27) (d.getLsbD 26) (shownInstrcompl s d)

/-- Whether an APB access has `locked = 1 and paddrdbg31 = 0` (R44, 41_dtr_access_mode.md R101, R120). -/
def State.lockedOut (s : State) (p31 : Bool) : Bool := s.locked && !p31

/-- `DSCR_apb` (R51): bits 27 and 26 show the latches to a locked read, the live flags to any other. -/
def dscrApb (s : State) (p31 : Bool) (d : Word) : Word :=
  if s.lockedOut p31 then dscrView s s.dscr.rxfullL s.dscr.txfullL (shownInstrcompl s d)
  else dscrView s s.dscr.rxfull s.dscr.txfull (shownInstrcompl s d)

/-- The method-of-entry code of a kind of debug event (R31, 42_hardware_events.md R146); none for an unlisted kind. -/
def moeCode : DebugKind → Option (BitVec 4)
  | .haltRequest => some 0b0000#4
  | .breakpoint => some 0b0001#4
  | .bkptInstruction => some 0b0011#4
  | .externalRequest => some 0b0100#4
  | .syncWatchpoint => some 0b1010#4
  | .unlisted _ => none

/-- The debug exception a kind causes in Monitor debug-mode (R146, R147); none for the kinds that can only halt. -/
def debugExceptionKind : DebugKind → Option TrapKind
  | .breakpoint => some .prefetchAbort
  | .bkptInstruction => some .prefetchAbort
  | .syncWatchpoint => some .dataAbort
  | .haltRequest => none
  | .externalRequest => none
  | .unlisted _ => none

/-- The value a write leaves in a one-bit field: the written bit where the mask has it, the old value elsewhere. -/
def openBit (mask d : Word) (i : Nat) (old : Bool) : Bool :=
  if mask.getLsbD i then d.getLsbD i else old

/-- The value a write leaves in MOE, bits 5:2, bit by bit. -/
def openMoe (mask d : Word) (old : BitVec 4) : BitVec 4 :=
  let m : BitVec 4 := mask.extractLsb' 2 4
  (old &&& ~~~m) ||| (d.extractLsb' 2 4 &&& m)

/-- The record a write of `d` leaves when it is not refused (R52): the control bits and the open bits of `opened`
are stored; bits 25, 24, 1 and 0 are ignored. -/
def dscrStored (opened : Word) (f : DscrState) (d : Word) : DscrState :=
  { f with
    dtrAccess := d.extractLsb' 20 2
    monProg := d.getLsbD 15
    haltProg := d.getLsbD 14
    itrEn := d.getLsbD 13
    comms := d.getLsbD 12
    intdis := d.getLsbD 11
    dbgack := d.getLsbD 10
    rxfull := openBit opened d 30 f.rxfull
    txfull := openBit opened d 29 f.txfull
    rxfullL := openBit opened d 27 f.rxfullL
    txfullL := openBit opened d 26 f.txfullL
    adadiscard := openBit opened d 19 f.adadiscard
    stickyUnd := openBit opened d 8 f.stickyUnd
    stickyAabt := openBit opened d 7 f.stickyAabt
    stickySabt := openBit opened d 6 f.stickySabt
    moe := openMoe opened d f.moe }

/-- `DSCR_write` (R52), with the set of open bits the interface stores. -/
def dscrWrite (opened : Word) (f : DscrState) (d : Word) : Except Refusal DscrState :=
  if d &&& resMask ≠ 0#32 then .error .sbzpViolated
  else if d.extractLsb' 20 2 = 0b11#2 then .error .reservedDtrMode
  else if d.getLsbD 13 && !f.halted then .error .itrEnOutsideDebugState
  else .ok (dscrStored opened f d)

end Sys2Proof.Machine
end

