-- ==== Sys2Proof/Machine/Ops.lean ====
section
/-! DEFINITION. The shared operations over registers, memory, the draw counter, the instruction from DBGITR;
retirement; taking an exception and returning from one; entering and leaving debug state; the resets. -/

namespace Sys2Proof.Machine

/-! ### Memory (20_memory.md R62) -/

/-- The byte at an address; none where nothing has been placed (log entry 7). -/
def Memory.read : Memory → Nat → Option Byte
  | [], _ => none
  | (k, v) :: rest, a => if a = k then some v else Memory.read rest a

/-- Memory with one byte placed, in the canonical form when it was in it. -/
def Memory.write : Memory → Nat → Byte → Memory
  | [], a, b => [(a, b)]
  | (k, v) :: rest, a, b =>
    if a < k then (a, b) :: (k, v) :: rest
    else if a = k then (a, b) :: rest
    else (k, v) :: Memory.write rest a b

/-- The canonical form: addresses strictly rising and below 2^32. No entry can equal what an unlisted address
reads as, since that is no byte at all. -/
def Memory.wf : Memory → Bool
  | [] => true
  | (k, _) :: rest => decide (k < 2 ^ 32) && rest.all (fun c => decide (k < c.1)) && Memory.wf rest

/-- Place a list of bytes at rising addresses. -/
def Memory.writeBytes : Memory → Nat → List Byte → Memory
  | m, _, [] => m
  | m, a, b :: rest => Memory.writeBytes (m.write a b) (a + 1) rest

/-- The `n` bytes from an address on, or the first address that holds none. -/
def Memory.readBytes (m : Memory) : Nat → Nat → Except Nat (List Byte)
  | _, 0 => .ok []
  | a, n + 1 =>
    match m.read a with
    | none => .error a
    | some b =>
      match Memory.readBytes m (a + 1) n with
      | .ok bs => .ok (b :: bs)
      | .error e => .error e

/-! ### Registers and draws -/

/-- Read general register `i` (10_state.md R47). -/
def State.readReg (s : State) (i : Fin 15) : Word := s.x[i.val]

/-- Write general register `i` (R47). -/
def State.writeReg (s : State) (i : Fin 15) (v : Word) : State := { s with x := s.x.set i.val v }

/-- Replace DBGDSCR's record. -/
def State.withDscr (s : State) (f : DscrState) : State := { s with dscr := f }

/-- The free value the next draw gives (00_scope.md R9). -/
def State.draw (s : State) : Word := Config.freeWord s.draws

/-- Move past `n` draws, so that the next draw is a fresh one. -/
def State.drawn (s : State) (n : Nat) : State := { s with draws := s.draws + n }

/-! ### The instruction from DBGITR (42_hardware_events.md R150, R151) -/

/-- The instruction in flight has had its effect. -/
def IssueStage.execute : IssueStage → IssueStage
  | .begun _ => .executed
  | g => g

/-- The instruction in flight has ended in an exception. DESIGN CHOICE (log entry 37): one that has had its effect
already stays executed, and its completion retires it; the spec does not say whether it then ended in the exception.
DESIGN CHOICE (log entry 40): a begun word that is neither MRC nor MCR of DBGDSCR ends here too, not refused. -/
def IssueStage.except : IssueStage → IssueStage
  | .begun _ => .excepted
  | g => g

/-- `issue(itr)` (41_dtr_access_mode.md R115): the processor fetches the word DBGITR holds; `instrcompl` is 0 from
here until R151. DESIGN CHOICE (log entry 36): an instruction still in flight, which the spec says nothing of, is
dropped. -/
def State.issueItr (s : State) : State :=
  { s with dscr := { s.dscr with instrcompl := false }, issue := .begun s.itr }

/-! ### Retirement -/

/-- Event `Retire` (42_hardware_events.md R140). -/
def State.retire (s : State) : State := { s with dscr := { s.dscr with pipeadv := true } }

/-- Steps 7 and 8 of 40_cp14_access.md R80: pc + 4 modulo 2^32 in normal state, no pc advance in debug state, and
retirement. In debug state the instruction from DBGITR has now had its effect. -/
def State.complete (s : State) : State :=
  { s with
    dscr := { s.dscr with pipeadv := true }
    pc := if s.dscr.halted then s.pc else s.pc + Config.ilen
    issue := if s.dscr.halted then s.issue.execute else s.issue }

/-! ### Taking an exception, and what follows it -/

/-- `Trap(kind, pc)` (60_exceptions.md R172, R173): the trap waits to be handed to a processor model from elsewhere,
the pc stays at the instruction, no register and no field of DBGDSCR changes, but that an Undefined Instruction
exception in debug state sets `sticky_und` (R148). In debug state it ends the instruction from DBGITR (R151), which
has no pc in the spec: the trap then carries the state's pc. DESIGN CHOICE (log entry 35). A trap taken while another
waits is appended behind it: DESIGN CHOICE (log entry 44). -/
def State.takeException (s : State) (k : TrapKind) : State :=
  { s with
    handover := s.handover ++ [⟨k, s.pc⟩]
    dscr := { s.dscr with
      stickyUnd := s.dscr.stickyUnd || (decide (k = .undefinedInstruction) && s.dscr.halted) }
    issue := if s.dscr.halted then s.issue.except else s.issue }

/-- The rest of the processor has dealt with whatever was handed over (a handler entered, run or returned from, an
interrupt taken, other instructions run) and leaves these registers, this pc and this mode. Nothing of DBGDSCR is
saved or restored (R173). -/
def State.processorActs (s : State) (x : Vector Word 15) (pc : Word) (user : Bool) : State :=
  { s with x := x, pc := pc, user := user, handover := [] }

/-! ### Entering and leaving debug state -/

/-- `EnterDebugState(code)` (42_hardware_events.md R143). No instruction from DBGITR is then in the processor (D16).
DESIGN CHOICE: the registers, the pc and the mode stay (log entry 33), and so does a trap that waits in `handover` (log
entry 41). -/
def State.enterDebugState (s : State) (code : BitVec 4) : State :=
  { s with
    dscr := { s.dscr with
      halted := true
      moe := code
      instrcomplL := true
      instrcompl := true
      adadiscard := true }
    issue := .idle }

/-- `BeginExit` (R144). -/
def beginExit (s : State) : Except Refusal State :=
  if s.dscr.halted then .ok { s with dscr := { s.dscr with restarted := false } }
  else .error .eventNotEnabled

/-- `CompleteExit` (R145). DESIGN CHOICE (log entry 33): the registers, the pc and the mode stay, and the processor's
next turn fetches at that pc; a trap taken in debug state still waits to be handed over (log entry 39); an instruction
from DBGITR still in flight, an MRC or MCR too, neither executes nor completes any more (log entry 43). -/
def completeExit (s : State) : Except Refusal State :=
  if s.dscr.halted && !s.dscr.restarted then
    if s.dscr.itrEn then .error .itrEnOutsideDebugState
    else .ok { s with dscr := { s.dscr with halted := false, restarted := true, adadiscard := false } }
  else .error .eventNotEnabled

/-- `DebugException(code)` (R147): `moe` records the cause and the processor takes the abort. -/
def State.debugException (s : State) (code : BitVec 4) (k : TrapKind) : State :=
  State.takeException { s with dscr := { s.dscr with moe := code } } k

/-- `DebugEvent(kind)` (R146). DESIGN CHOICE (log entry 44): it may come while a trap waits, and a debug exception then
appends another. -/
def debugEvent (k : DebugKind) (s : State) : Except Refusal State :=
  if s.dscr.halted then .error .debugEventOutcomeNotInSource
  else
    match moeCode k with
    | none => .error .debugEventOutcomeNotInSource
    | some code =>
      match s.debugMode with
      | .halting => .ok (s.enterDebugState code)
      | .monitor =>
        match debugExceptionKind k with
        | some t => .ok (s.debugException code t)
        | none => .error .debugEventOutcomeNotInSource
      | .noDebugMode => .error .debugEventOutcomeNotInSource

/-! ### The resets (70_reset_and_hazards.md) -/

/-- DBGDSCR after a PRESETDBGn event (R191), the unspecified fields taken from the draw `d` at their own bits,
`instrcompl` from bit 0. -/
def DscrState.debugReset (f : DscrState) (d : Word) : DscrState :=
  { f with
    rxfull := false
    txfull := false
    dtrAccess := 0b00#2
    monProg := false
    haltProg := false
    itrEn := false
    comms := false
    intdis := false
    dbgack := false
    rxfullL := d.getLsbD 27
    txfullL := d.getLsbD 26
    pipeadv := d.getLsbD 25
    instrcompl := d.getLsbD 0
    instrcomplL := d.getLsbD 24
    adadiscard := d.getLsbD 19
    stickyUnd := d.getLsbD 8
    stickyAabt := d.getLsbD 7
    stickySabt := d.getLsbD 6
    moe := d.extractLsb' 2 4 }

/-- `DebugReset` (R191): one draw for DBGDSCR's unspecified fields, one each for DBGDTRRX, DBGDTRTX and DBGITR (log entry
19). DESIGN CHOICE (log entry 42): the stage of an issued instruction stays, whatever `instrcompl` is drawn as. -/
def State.debugReset (s : State) : State :=
  { s with
    dscr := s.dscr.debugReset (Config.freeWord s.draws)
    dtrrx := Config.freeWord (s.draws + 1)
    dtrtx := Config.freeWord (s.draws + 2)
    itr := Config.freeWord (s.draws + 3)
    draws := s.draws + 4 }

/-- What a processor reset does to the processor: the general registers and the pc are free values, what waited to
be handed over is gone (N13); the rest, the condition outcomes and the locked bit among it, stays (log entry 18), and an
instruction from DBGITR in flight neither executes nor completes any more (log entry 43). -/
def State.resetProcessor (s : State) : State :=
  { s with
    x := Vector.ofFn fun i => Config.freeWord (s.draws + i.val)
    pc := Config.freeWord (s.draws + 15)
    handover := []
    draws := s.draws + 16 }

/-- The assignments of a processor reset but those of bits 1:0: the control bits too where
`PROC_RESET_RESETS_CONTROL` says so (R192). -/
def State.underReset (s : State) : State :=
  if s.cfg.procResetResetsControl then s.resetProcessor.debugReset else s.resetProcessor

/-- The processor comes out of reset in normal state (R34, R192). -/
def State.leaveReset (s : State) : State :=
  { s with dscr := { s.dscr with restarted := true, halted := false } }

/-- `ProcessorReset` (R192); it may not leave `itr_en = 1` (R24). -/
def processorReset (s : State) : Except Refusal State :=
  if s.underReset.dscr.itrEn then .error .itrEnOutsideDebugState else .ok s.underReset.leaveReset

end Sys2Proof.Machine
end

