-- ==== Sys2Proof/Machine/Apb.lean ====
section
/-! DEFINITION. The debugger's accesses through the APB port (41_dtr_access_mode.md R101 to R120). -/

namespace Sys2Proof.Machine

/-- The three latches take the live flags (R101). -/
def DscrState.latch (f : DscrState) : DscrState :=
  { f with rxfullL := f.rxfull, txfullL := f.txfull, instrcomplL := f.instrcompl }

/-- DBGDSCR after a debugger read of it: a locked read latches only where `LOCKED_READ_LATCHES` says so (R101, D9). -/
def State.latchForRead (s : State) (p31 : Bool) : State :=
  if !s.lockedOut p31 || s.cfg.lockedReadLatches then s.withDscr s.dscr.latch else s

/-- `APBRead(DBGDSCR, paddrdbg31)` (R101): the value is computed from the state after the latching (D41). -/
def apbReadDscr (p31 : Bool) (s : State) : ApbOutcome :=
  let t := s.latchForRead p31
  .done (t.drawn 1) (.value (dscrApb t p31 s.draw))

/-- `APBWrite(DBGDSCR, d, paddrdbg31)` past the lock (R102). -/
def apbWriteDscr (d : Word) (s : State) : ApbOutcome :=
  match dscrWrite (openApb s.cfg) s.dscr d with
  | .ok f => .done (s.withDscr f) .written
  | .error e => .refuse e

/-- What a successful debugger write of DBGDTRRX stores, in every mode (R103, R108, R111, D11). -/
def State.fillDtrrx (s : State) (d : Word) : State :=
  { s with dtrrx := d, dscr := { s.dscr with rxfull := true, rxfullL := true } }

/-- What a successful debugger read of DBGDTRTX clears, in every mode (R104, R109, R112, D11). -/
def State.emptyDtrtx (s : State) : State :=
  { s with dscr := { s.dscr with txfull := false, txfullL := false } }

/-- What a successful debugger write of DBGITR that issues does (R105, R110): DBGITR holds `d`, both flags are
cleared, the processor fetches it. -/
def State.loadAndIssue (s : State) (d : Word) : State :=
  State.issueItr { s with itr := d, dscr := { s.dscr with instrcomplL := false } }

/-- Debugger write of DBGDTRRX past the lock, by mode (R103, R108, R111, R114). -/
def apbWriteDtrrx (d : Word) (s : State) : ApbOutcome :=
  match dtrModeOf s.dscr.dtrAccess with
  | .nonBlocking => if s.dscr.rxfullL then .ignored s .written else .done (s.fillDtrrx d) .written
  | .stall => if s.dscr.rxfull then .hold else .done (s.fillDtrrx d) .written
  | .fast =>
    if s.dscr.rxfull then .hold
    else if !s.dscr.halted || !s.dscr.itrEn then .refuse .fastIssueNotEnabled
    else if !s.dscr.instrcompl then .refuse .fastIssueWhileBusy
    else .done (s.fillDtrrx d).issueItr .written
  | .reserved => .refuse .reservedDtrMode

/-- Debugger read of DBGDTRTX past the lock, by mode (R104, R109, R112, R114). An ignored read returns a draw. -/
def apbReadDtrtx (s : State) : ApbOutcome :=
  match dtrModeOf s.dscr.dtrAccess with
  | .nonBlocking =>
    if s.dscr.txfullL then .done s.emptyDtrtx (.value s.dtrtx) else .ignored (s.drawn 1) (.value s.draw)
  | .stall => if s.dscr.txfull then .done s.emptyDtrtx (.value s.dtrtx) else .hold
  | .fast =>
    if !s.dscr.txfull then .hold
    else if !s.dscr.halted || !s.dscr.itrEn then .refuse .fastIssueNotEnabled
    else if !s.dscr.instrcompl then .refuse .fastIssueWhileBusy
    else .done s.emptyDtrtx.issueItr (.value s.dtrtx)
  | .reserved => .refuse .reservedDtrMode

/-- Debugger write of DBGITR past the lock, by mode (R105, R110, R113, R114). In Fast mode it only loads (D12). -/
def apbWriteItr (d : Word) (s : State) : ApbOutcome :=
  match dtrModeOf s.dscr.dtrAccess with
  | .nonBlocking =>
    if !s.dscr.halted then .refuse .itrWriteOutsideDebugState
    else if !s.dscr.instrcomplL then .ignored s .written
    else if !s.dscr.itrEn then .refuse .itrWriteWhileDisabled
    else .done (s.loadAndIssue d) .written
  | .stall =>
    if !s.dscr.halted then .refuse .itrWriteOutsideDebugState
    else if !s.dscr.instrcompl then .hold
    else if !s.dscr.itrEn then .refuse .itrWriteWhileDisabled
    else .done (s.loadAndIssue d) .written
  | .fast =>
    if !s.dscr.halted then .refuse .itrWriteOutsideDebugState
    else if !s.dscr.instrcompl then .hold
    else .done { s with itr := d } .written
  | .reserved => .refuse .reservedDtrMode

/-- The clears of a DBGDRCR write: bit 3 clears `pipeadv` (R116), bit 2 the three sticky bits (R117). -/
def DscrState.drcrClear (f : DscrState) (d : Word) : DscrState :=
  { f with
    pipeadv := f.pipeadv && !d.getLsbD 3
    stickyUnd := f.stickyUnd && !d.getLsbD 2
    stickyAabt := f.stickyAabt && !d.getLsbD 2
    stickySabt := f.stickySabt && !d.getLsbD 2 }

/-- `WriteDRCR(d)` past the lock (R116 to R118): the clears, and a halting debug event for bit 0. -/
def apbWriteDrcr (d : Word) (s : State) : ApbOutcome :=
  let t := s.withDscr (s.dscr.drcrClear d)
  if d.getLsbD 0 then
    match debugEvent .haltRequest t with
    | .ok u => .done u .written
    | .error e => .refuse e
  else .done t .written

/-- Every access but the read of DBGDSCR is refused when `locked = 1 and paddrdbg31 = 0` (R120). -/
def unlessLocked (p31 : Bool) (s : State) (access : State → ApbOutcome) : ApbOutcome :=
  if s.lockedOut p31 then .refuse .lockedAccess else access s

/-- One access of the debugger. -/
def apbAccess (a : ApbAccess) (s : State) : ApbOutcome :=
  match a with
  | .readDscr p31 => apbReadDscr p31 s
  | .writeDscr d p31 => unlessLocked p31 s (apbWriteDscr d)
  | .writeDtrrx d p31 => unlessLocked p31 s (apbWriteDtrrx d)
  | .readDtrtx p31 => unlessLocked p31 s apbReadDtrtx
  | .writeItr d p31 => unlessLocked p31 s (apbWriteItr d)
  | .writeDrcr d p31 => unlessLocked p31 s (apbWriteDrcr d)

/-- Whether an access can be held at all: the DTR and DBGITR accesses (R119). -/
def ApbAccess.mayHold : ApbAccess → Bool
  | .readDscr _ => false
  | .writeDscr _ _ => false
  | .writeDtrrx _ _ => true
  | .readDtrtx _ => true
  | .writeItr _ _ => true
  | .writeDrcr _ _ => false

end Sys2Proof.Machine
end

