-- ==== Sys2Proof/Machine/Operands.lean ====
section
/-! DEFINITION. The operand forms of the two instructions, the condition test, the access check, and the order of
evaluation both instructions share (40_cp14_access.md R80). -/

namespace Sys2Proof.Machine

/-- `ConditionPassed(cond)` (30_encoding.md R75): always for 0b1110, the input's answer for 0b0000 to 0b1101.
For 0b1111 it is not asked. -/
def conditionPassed (s : State) (c : Cond) : Bool :=
  if c = 0b1110#4 then true else s.conds.getLsbD c.toNat

/-- Whether the access check permits a CP14 debug register access; when it does not, an Undefined Instruction
exception is raised (60_exceptions.md R171). -/
def accessPermitted (s : State) (k : AccessKind) : Bool :=
  if s.user && s.dscr.comms then false
  else if s.user then
    match k, s.cfg.userDscrWrite with
    | .read, _ => true
    | .write, .permitted => true
    | .write, .undefinedInstruction => false
  else true

/-- The template of R80, steps 2 to 8, around the transfer of step 6. -/
def runCp14 (k : AccessKind) (c : Cond) (r : Rd) (transfer : Fin 15 → State → Except Refusal State) (s : State) :
    Host.Outcome State Fault Refusal :=
  if c = 0b1111#4 then .refused .notInScope
  else if conditionPassed s c then
    match r with
    | .r15 => .refused .rdIs15
    | .gpr i =>
      if accessPermitted s k then
        match transfer i s with
        | .ok t => .next t.complete
        | .error e => .refused e
      else .next (s.takeException .undefinedInstruction)
  else .next s.complete

end Sys2Proof.Machine
end

