-- ==== Sys2Proof/Machine/Cp14.lean ====
section
/-! DEFINITION. The meanings of the two instructions (40_cp14_access.md R81, R82). -/

namespace Sys2Proof.Machine

/-- The transfer of the MRC (R81): `x[Rd]` gets the CP14 read view, all 32 bits; no field of DBGDSCR changes. -/
def mrcTransfer (i : Fin 15) (s : State) : Except Refusal State :=
  .ok ((s.writeReg i (dscrCp14 s s.draw)).drawn 1)

/-- The transfer of the MCR (R82): DBGDSCR is written with `x[Rd]`. -/
def mcrTransfer (i : Fin 15) (s : State) : Except Refusal State :=
  match dscrWrite (openCp14 s.cfg) s.dscr (s.readReg i) with
  | .ok f => .ok (s.withDscr f)
  | .error e => .error e

/-- `MRC p14, 0, <Rd>, c0, c1, 0` (R81). -/
def execMrcDbgdscr (c : Cond) (r : Rd) (s : State) : Host.Outcome State Fault Refusal :=
  runCp14 .read c r mrcTransfer s

/-- `MCR p14, 0, <Rd>, c0, c1, 0` (R82). -/
def execMcrDbgdscr (c : Cond) (r : Rd) (s : State) : Host.Outcome State Fault Refusal :=
  runCp14 .write c r mcrTransfer s

end Sys2Proof.Machine
end

