-- ==== Sys2Proof/Machine/Dispatch.lean ====
section
/-! DEFINITION. One arm per instruction. -/

namespace Sys2Proof.Machine

def exec (i : Instr) (s : State) : Host.Outcome State Fault Refusal :=
  match i with
  | .mrcDbgdscr c r => Sys2Proof.Machine.execMrcDbgdscr c r s
  | .mcrDbgdscr c r => Sys2Proof.Machine.execMcrDbgdscr c r s

end Sys2Proof.Machine
end

