-- ==== Sys2Proof/Machine/Events.lean ====
section
/-! DEFINITION. The events of the processor, the pins, the lock and the resets (42_hardware_events.md,
70_reset_and_hazards.md), and the inputs of 00_scope.md R5. -/

namespace Sys2Proof.Machine

/-- Whether the processor may perform a DTR transfer now: in normal state always; in debug state only as the
instruction fetched from DBGITR, when its word is neither MRC nor MCR of DBGDSCR (R143, R150; DEDUCED, log entry
16) and `instrcompl` is 0 (DESIGN CHOICE, log entry 42). DESIGN CHOICE (log entry 44): a trap that waits stops no
transfer. -/
def dtrTransferEnabled (s : State) : Bool :=
  if s.dscr.halted then
    match s.issue with
    | .begun w =>
      !s.dscr.instrcompl &&
        (match decodeWord w with
         | .ok _ => false
         | .error _ => true)
    | _ => false
  else true

/-- The issue stage after a DTR transfer: in debug state the instruction from DBGITR has had its effect (R150). -/
def State.transferDone (s : State) : State :=
  { s with issue := if s.dscr.halted then s.issue.execute else s.issue }

/-- `ProcReadDTRRX` (R141), under the access check of R171. -/
def procReadDtrrx (rd : Fin 15) (s : State) : Except Refusal State :=
  if !dtrTransferEnabled s then .error .eventNotEnabled
  else if !accessPermitted s .read then .ok (s.takeException .undefinedInstruction)
  else
    let v := if s.dscr.rxfull then s.dtrrx else s.draw
    .ok ((((s.writeReg rd v).withDscr { s.dscr with rxfull := false }).drawn 1).transferDone)

/-- `ProcWriteDTRTX(v)` (R142), under the access check of R171. -/
def procWriteDtrtx (v : Word) (s : State) : Except Refusal State :=
  if !dtrTransferEnabled s then .error .eventNotEnabled
  else if !accessPermitted s .write then .ok (s.takeException .undefinedInstruction)
  else .ok ({ s with dtrtx := v, dscr := { s.dscr with txfull := true } } : State).transferDone

/-- `UndefInDebugState` (R148). DESIGN CHOICE: nothing is handed over (log entry 38), and a begun word ends in the
exception whatever it is, one outside the spec too (log entry 40). -/
def undefInDebugState (s : State) : Except Refusal State :=
  if s.dscr.halted then
    .ok { s with dscr := { s.dscr with stickyUnd := true }, issue := s.issue.except }
  else .error .eventNotEnabled

/-- `SyncAbortInDebugState` (R149). DESIGN CHOICE: nothing is handed over (log entry 38), and a begun word ends in the
exception whatever it is, one outside the spec too (log entry 40). -/
def syncAbortInDebugState (s : State) : Except Refusal State :=
  if s.dscr.halted then
    .ok { s with dscr := { s.dscr with stickySabt := true }, issue := s.issue.except }
  else .error .eventNotEnabled

/-- `IssueComplete` (R151): retirement, unless the instruction ended in an exception. An instruction that has had
no effect yet cannot complete; a word outside the spec has no meaning (R150), unless an exception has ended it before
(DESIGN CHOICE, log entry 40). With `instrcompl` drawn as 1 by a debug reset nothing completes (log entry 42). -/
def issueComplete (s : State) : Except Refusal State :=
  if s.dscr.halted && !s.dscr.instrcompl then
    match s.issue with
    | .begun w =>
      match decodeWord w with
      | .ok _ => .error .eventNotEnabled
      | .error _ => .error .notInScope
    | .excepted => .ok { s with dscr := { s.dscr with instrcompl := true }, issue := .idle }
    | .executed => .ok (State.retire { s with dscr := { s.dscr with instrcompl := true }, issue := .idle })
    | .idle => .ok (State.retire { s with dscr := { s.dscr with instrcompl := true }, issue := .idle })
  else .error .eventNotEnabled

/-- An asynchronous Data Abort "handled as normal" (R152): no field of DBGDSCR changes, the abort goes to the
processor model from elsewhere. `ends` says whether it ends the instruction from DBGITR (log entry 12), one outside the
spec too (DESIGN CHOICE, log entry 40). -/
def State.normalAbort (s : State) (ends : Bool) : State :=
  { s with
    handover := s.handover ++ [⟨.asyncDataAbort, s.pc⟩]
    issue := if s.dscr.halted && ends then s.issue.except else s.issue }

/-- `AsyncAbort` (R152). -/
def State.asyncAbort (s : State) (ends : Bool) : State :=
  if s.dscr.halted then
    let t := s.withDscr { s.dscr with stickyAabt := true }
    if s.dscr.adadiscard then t else t.normalAbort ends
  else s.normalAbort ends

/-- One event. DESIGN CHOICE: a byte that `outsideStore` places is seen by the very next fetch (log entry 34), and a trap
that waits stops no event (log entry 44). -/
def eventStep (e : Event) (s : State) : Except Refusal State :=
  match e with
  | .retire => .ok s.retire
  | .procReadDtrrx rd => procReadDtrrx rd s
  | .procWriteDtrtx v => procWriteDtrtx v s
  | .debugEvent k => debugEvent k s
  | .beginExit => beginExit s
  | .completeExit => completeExit s
  | .undefInDebugState => undefInDebugState s
  | .syncAbortInDebugState => syncAbortInDebugState s
  | .issueComplete => issueComplete s
  | .asyncAbort ends => .ok (s.asyncAbort ends)
  | .setDbgen b => .ok { s with dbgen := b }
  | .setLocked b => .ok { s with locked := b }
  | .setIrq b => .ok { s with irq := b }
  | .setFiq b => .ok { s with fiq := b }
  | .setCoreDbgack b => .ok { s with coreDbgack := b }
  | .setUser b => .ok { s with user := b }
  | .setConds c => .ok { s with conds := c }
  | .debugReset => .ok s.debugReset
  | .processorReset => processorReset s
  | .outsideProcessor x pc user => .ok (s.processorActs x pc user)
  | .outsideStore a b => .ok { s with mem := s.mem.write a.toNat b }

end Sys2Proof.Machine
end

