-- ==== Sys2Proof/Machine/Turns.lean ====
section
/-! DEFINITION. Fetching an instruction, and the turn of each agent (00_scope.md R7, 20_memory.md R66). -/

namespace Sys2Proof.Machine

/-- The four bytes of the instruction at `pc` (20_memory.md R62). -/
def fetch (s : State) : Host.Outcome (List Byte) Fault Refusal :=
  if s.pc.extractLsb' 0 2 ≠ 0#2 then .refused .misalignedPc
  else
    match s.mem.readBytes s.pc.toNat 4 with
    | .ok bs => .next bs
    | .error a => .fault (.fetchUnwritten a)

/-- What the processor finds when its turn comes. -/
inductive Found where
  /-- Nothing to run: halted, and no instruction from DBGITR waits. -/
  | nothing
  /-- The bytes of an instruction: from memory at `pc` in normal state, from DBGITR in debug state. -/
  | bytes (bs : List Byte)
  | fault (f : Fault)
  | refused (r : Refusal)
deriving DecidableEq, Repr

/-- Where the processor's next instruction comes from (40_cp14_access.md R80, 42_hardware_events.md R143, R150). A
trap that waits to be handed over leaves the source of the next instruction outside the spec (60_exceptions.md
R172; log entry 11). DESIGN CHOICE (log entry 42): a begun instruction is not run while `instrcompl` is 1, as a debug
reset may have drawn it. -/
def State.nextInstr (s : State) : Found :=
  if s.dscr.halted then
    match s.issue with
    | .begun w => if s.dscr.instrcompl then .nothing else .bytes (bytesOfWord s.cfg.instrEndian w)
    | _ => .nothing
  else if s.handover.isEmpty then
    match fetch s with
    | .next bs => .bytes bs
    | .fault f => .fault f
    | .refused r => .refused r
  else .refused .exceptionEntryNotInSource

/-- The processor's turn: it executes the next instruction (R80); halted with nothing to execute, it waits (R143). -/
def procTurn (s : State) : Host.Outcome State Fault Refusal :=
  match s.nextInstr with
  | .nothing => .next s
  | .fault f => .fault f
  | .refused r => .refused r
  | .bytes bs =>
    match decode s.cfg.instrEndian bs with
    | .ok (i, _) => exec i s
    | .error _ => .refused .notInScope

/-- The debugger's turn: it makes the access at the head of its queue. One that holds stays on the port, and each later
turn of the debugger tries it again, in the state and the mode then in force (R119); when that turn comes is the
schedule's (20_memory.md R66, D37; log entry 10). -/
def dbgTurn (s : State) : Host.Outcome State Fault Refusal :=
  match s.dbgQueue with
  | [] => .next s
  | a :: rest =>
    match apbAccess a s with
    | .done t r => .next { t with dbgQueue := rest, portHeld := false, reply := some r }
    | .ignored t r => .next { t with dbgQueue := rest, portHeld := false, reply := some r }
    | .hold => .next { s with portHeld := true }
    | .refuse r => .refused r

/-- An event's turn. -/
def eventTurn (e : Event) (s : State) : Host.Outcome State Fault Refusal :=
  match eventStep e s with
  | .ok t => .next t
  | .error r => .refused r

/-- The turn the schedule names; the processor's when it names none (log entry 9). -/
def scheduledTurn (s : State) : Host.Outcome State Fault Refusal :=
  match s.sched with
  | [] => procTurn s
  | .proc :: rest => procTurn { s with sched := rest }
  | .dbg :: rest => dbgTurn { s with sched := rest }
  | .event e :: rest => eventTurn e { s with sched := rest }

/-- The schedule with the processor's turn first. An empty one has it first already. -/
def procFirst : List Turn → List Turn
  | [] => []
  | ts => .proc :: ts

/-- The state with an instruction word placed where the processor's next turn finds it: in memory at `pc`, or, for
a halted processor, in DBGITR and fetched from it (log entry 28). -/
def State.placeInstr (s : State) (w : Word) : State :=
  if s.dscr.halted then
    { s with
      itr := w
      issue := .begun w
      dscr := { s.dscr with instrcompl := false }
      sched := procFirst s.sched }
  else
    { s with
      mem := s.mem.writeBytes s.pc.toNat (bytesOfWord s.cfg.instrEndian w)
      handover := []
      sched := procFirst s.sched }

end Sys2Proof.Machine
end

