-- ==== Sys2Proof/Machine/Step.lean ====
section
/-! DEFINITION. One step of the machine: one atomic step of one agent (20_memory.md R66). -/

namespace Sys2Proof.Machine

/-- The turn the schedule names: any order of the agents' turns is a schedule, so any interleaving is a run (D2, D37). -/
def step (s : State) : Host.Outcome State Fault Refusal :=
  scheduledTurn s

/-- The state whose next step fetches and runs the instruction whose bits are `w` (log entry 28). -/
def State.withFetchWord (s : State) (nbits w : Nat) : State :=
  s.placeInstr (BitVec.ofNat 32 (w % 2 ^ nbits))

end Sys2Proof.Machine
end

