-- ==== Sys2Proof/Safety.lean ====
section
/-! DEFINITION. What counts as a legal state, in the terms the claims use. -/

namespace Sys2Proof.Machine

/-- What the spec's rules keep of every state they start from. -/
structure State.Inv (s : State) : Prop where
  /-- Memory is in its canonical form. -/
  memory : s.mem.wf = true
  /-- No write stores mode 0b11 (41_dtr_access_mode.md R114). -/
  mode : s.dscr.dtrAccess ≠ 0b11#2
  /-- `halted = 0, restarted = 0` is not reachable (10_state.md R46). -/
  running : s.dscr.halted = true ∨ s.dscr.restarted = true
  /-- `itr_en = 1` only in debug state (10_state.md R24, 70_reset_and_hazards.md R201). -/
  itrEn : s.dscr.itrEn = true → s.dscr.halted = true
  /-- What is held on the port is the debugger's next access, of a kind that can be held (R119). -/
  port : s.portHeld = true → ∃ a q, s.dbgQueue = a :: q ∧ a.mayHold = true

/-- The data of a write of DBGDSCR that R52 does not refuse. -/
structure WriteAccepted (f : DscrState) (d : Word) : Prop where
  /-- No reserved bit is set. -/
  reserved : d &&& resMask = 0#32
  /-- Bits 21:20 are not 0b11. -/
  mode : d.extractLsb' 20 2 ≠ 0b11#2
  /-- Bit 13 is set only in debug state. -/
  itrEn : d.getLsbD 13 = true → f.halted = true

/-- Neither interface stores the open bits of the mask `m`, whatever the parameters say of the others (10_state.md
R35). -/
def State.Closed (s : State) (m : Word) : Prop := openCp14 s.cfg &&& m = 0#32 ∧ openApb s.cfg &&& m = 0#32

/-- The state after power-up as far as the spec states it (70_reset_and_hazards.md R194). -/
structure DscrState.PoweredUp (f : DscrState) : Prop where
  rxfull : f.rxfull = false
  txfull : f.txfull = false
  dtrAccess : f.dtrAccess = 0b00#2
  monProg : f.monProg = false
  haltProg : f.haltProg = false
  itrEn : f.itrEn = false
  comms : f.comms = false
  intdis : f.intdis = false
  dbgack : f.dbgack = false
  restarted : f.restarted = true
  halted : f.halted = false

/-- The next step is the turn `t` of the schedule, which goes on with `rest`. -/
def State.Next (s : State) (t : Turn) (rest : List Turn) : Prop :=
  s.sched = t :: rest

/-- The next step is the debugger's and it makes the access `a`, held until now or not, with `q` still to make. -/
def State.Accesses (s : State) (a : ApbAccess) (q : List ApbAccess) (rest : List Turn) : Prop :=
  s.sched = .dbg :: rest ∧ s.dbgQueue = a :: q

/-- The next step is the processor's turn, by the schedule or, when that is empty, by log entry 9; it goes on with
`rest`. -/
def State.ProcNext (s : State) (rest : List Turn) : Prop :=
  (s.sched = [] ∧ rest = []) ∨ s.sched = .proc :: rest

/-- The next step is one of the two resets. -/
def State.ResetNext (s : State) : Prop :=
  s.sched.head? = some (.event .debugReset) ∨ s.sched.head? = some (.event .processorReset)

/-- What a debugger access leaves of the state: the queue moves on, nothing is held, the debugger has its reply. -/
def State.answered (s : State) (q : List ApbAccess) (rest : List Turn) (r : ApbReply) : State :=
  { s with dbgQueue := q, portHeld := false, reply := some r, sched := rest }

end Sys2Proof.Machine
end

