-- ==== Sys2Proof/Certificates/Slice0/Obligations.lean ====
section
/-! DEFINITION. The statements for the provers, each a Prop, in the order of the spec's files. -/

open Sys2Proof Sys2Proof.Machine

/-! ### Encoding (30_encoding.md) -/

/-- Decoding the bytes of a well-formed instruction, in either byte order and before any other bytes, gives the
instruction back with every operand (30_encoding.md section 3). -/
def Obligations.DecodeUndoesEncode : Prop :=
  ∀ (e : Endian) (i : Instr) (rest : List Byte), i.wf = true → decode e (encodeBytes e i ++ rest) = .ok (i, rest)

/-- A word that decodes is the word of the instruction it decodes to, which is well-formed: no bit of an encoding is
dropped (section 3). -/
def Obligations.DecodedWordEncodesBack : Prop :=
  ∀ (w : Word) (i : Instr), decodeWord w = .ok i → i.wf = true ∧ encode i = w

/-- Words written out from the spec's encoding decode to the instruction they stand for (95_test_vectors.md V-EN-1
to V-EN-8). The bit positions are presumed (log entry 20); that a word with `<Rd>` = 15, which V-EN-3 and V-EN-8
refuse, decodes to an instruction with operand `r15` and is refused at its execution is the model's (log entry 32). -/
def Obligations.SpecWordsDecode : Prop :=
  decodeWord 0xEE100E11#32 = .ok (.mrcDbgdscr 0b1110#4 (.gpr 0)) ∧
  decodeWord 0xEE10EE11#32 = .ok (.mrcDbgdscr 0b1110#4 (.gpr 14)) ∧
  decodeWord 0xEE10FE11#32 = .ok (.mrcDbgdscr 0b1110#4 .r15) ∧
  decodeWord 0x0E101E11#32 = .ok (.mrcDbgdscr 0b0000#4 (.gpr 1)) ∧
  decodeWord 0xFE100E11#32 = .error .unconditional ∧
  decodeWord 0xEE000E11#32 = .ok (.mcrDbgdscr 0b1110#4 (.gpr 0)) ∧
  decodeWord 0xEE007E11#32 = .ok (.mcrDbgdscr 0b1110#4 (.gpr 7)) ∧
  decodeWord 0xEE00FE11#32 = .ok (.mcrDbgdscr 0b1110#4 .r15)

/-! ### The step and the instruction it runs (20_memory.md, 40_cp14_access.md, 42_hardware_events.md) -/

/-- On the processor's turn the step is `exec` of the decoded instruction and nothing else around it: in normal
state the one whose bytes stand at the aligned `pc`, with no trap waiting; in debug state the one fetched from DBGITR.
`rest` is the schedule after the turn; an empty schedule is the processor's turn (log entry 9). -/
def Obligations.StepRunsTheDecodedInstruction : Prop :=
  ∀ (s : State) (i : Instr) (rest : List Turn),
    s.ProcNext rest →
    (∀ bs tail : List Byte, s.dscr.halted = false → s.handover = [] → s.pc.extractLsb' 0 2 = 0#2 →
      s.mem.readBytes s.pc.toNat 4 = .ok bs → decode s.cfg.instrEndian bs = .ok (i, tail) →
      step s = exec i { s with sched := rest }) ∧
    (∀ w : Word, s.dscr.halted = true → s.issue = .begun w → s.dscr.instrcompl = false → decodeWord w = .ok i →
      step s = exec i { s with sched := rest })

/-- An instruction word placed where the processor fetches next is fetched and run by the very next step, whatever
the schedule holds: at an aligned `pc` in normal state, in DBGITR in debug state (log entry 28). -/
def Obligations.PlacedWordIsFetchedAndRun : Prop :=
  ∀ (s : State) (i : Instr), i.wf = true → (s.dscr.halted = true ∨ s.pc.extractLsb' 0 2 = 0#2) →
    step (s.withFetchWord 32 (encode i).toNat) = exec i { s.withFetchWord 32 (encode i).toNat with sched := s.sched }

/-- In normal state the processor's turn refuses a `pc` that is not a multiple of 4, and a word at an aligned `pc`
that matches neither row or has condition 0b1111 (20_memory.md section 2, 30_encoding.md sections 4 and 5; D22, D23).
In debug state it refuses such a word in DBGITR (42_hardware_events.md section 5): one that stands for a DTR transfer
has its effect by an event and not on the processor's turn (log entry 16). An empty schedule is the processor's turn
(log entry 9). -/
def Obligations.OtherWordsAreRefused : Prop :=
  ∀ (s : State) (w : Word) (rest : List Turn), s.ProcNext rest →
    (s.dscr.halted = false → s.handover = [] → s.pc.extractLsb' 0 2 ≠ 0#2 → step s = .refused .misalignedPc) ∧
    ((condField w = 0b1111#4 ∨
        (w &&& 0x0FFF0FFF#32 ≠ 0x0E100E11#32 ∧ w &&& 0x0FFF0FFF#32 ≠ 0x0E000E11#32)) →
      (s.dscr.halted = false → s.handover = [] → s.pc.extractLsb' 0 2 = 0#2 →
        s.mem.readBytes s.pc.toNat 4 = .ok (bytesOfWord s.cfg.instrEndian w) → step s = .refused .notInScope) ∧
      (s.dscr.halted = true → s.issue = .begun w → s.dscr.instrcompl = false → step s = .refused .notInScope))

/-! ### The two instructions (40_cp14_access.md) -/

/-- The MRC completes whenever its condition passes, `<Rd>` is 0 to 14 and the mode may read: `x[Rd]` gets the CP14
read view, whose draws are the next free value; `pc` advances by 4 in normal state only; the instruction retires;
in debug state the instruction from DBGITR counts as executed, a stage of the model's own (log entry 13); everything
else is as before (40_cp14_access.md sections 1 and 2). The draw counter is the model's own (log entry 2). -/
def Obligations.MrcReadsTheRegister : Prop :=
  ∀ (s : State) (c : Cond) (i : Fin 15),
    c ≠ 0b1111#4 → conditionPassed s c = true → (s.user = false ∨ s.dscr.comms = false) →
    exec (.mrcDbgdscr c (.gpr i)) s = .next
      { s with
        x := s.x.set i.val (dscrCp14 s (Config.freeWord s.draws))
        pc := if s.dscr.halted then s.pc else s.pc + 4#32
        dscr := { s.dscr with pipeadv := true }
        issue := if s.dscr.halted then s.issue.execute else s.issue
        draws := s.draws + 1 }

/-- The MCR completes whenever its condition passes, `<Rd>` is 0 to 14, the mode may write and the data is accepted:
the control bits are stored, each open bit is stored exactly when the parameter `W_OPEN` has it, bits 25, 24, 1 and 0
are ignored; in debug state the instruction from DBGITR counts as executed (log entry 13); everything else is as before
(sections 1 and 3, 10_state.md section 8; D4, log entry 3). -/
def Obligations.McrWritesTheRegister : Prop :=
  ∀ (s : State) (c : Cond) (i : Fin 15),
    c ≠ 0b1111#4 → conditionPassed s c = true →
    (s.user = false ∨ (s.dscr.comms = false ∧ s.cfg.userDscrWrite = .permitted)) →
    s.x[i.val] &&& 0x90C70200#32 = 0#32 → s.x[i.val].extractLsb' 20 2 ≠ 0b11#2 →
    (s.x[i.val].getLsbD 13 = true → s.dscr.halted = true) →
    ∃ g : DscrState,
      exec (.mcrDbgdscr c (.gpr i)) s = .next
        { s with
          pc := if s.dscr.halted then s.pc else s.pc + 4#32
          dscr := g
          issue := if s.dscr.halted then s.issue.execute else s.issue } ∧
      g.dtrAccess = s.x[i.val].extractLsb' 20 2 ∧ g.monProg = s.x[i.val].getLsbD 15 ∧
      g.haltProg = s.x[i.val].getLsbD 14 ∧ g.itrEn = s.x[i.val].getLsbD 13 ∧ g.comms = s.x[i.val].getLsbD 12 ∧
      g.intdis = s.x[i.val].getLsbD 11 ∧ g.dbgack = s.x[i.val].getLsbD 10 ∧
      g.rxfull = (if s.cfg.wOpen.getLsbD 30 then s.x[i.val].getLsbD 30 else s.dscr.rxfull) ∧
      g.txfull = (if s.cfg.wOpen.getLsbD 29 then s.x[i.val].getLsbD 29 else s.dscr.txfull) ∧
      g.rxfullL = (if s.cfg.wOpen.getLsbD 27 then s.x[i.val].getLsbD 27 else s.dscr.rxfullL) ∧
      g.txfullL = (if s.cfg.wOpen.getLsbD 26 then s.x[i.val].getLsbD 26 else s.dscr.txfullL) ∧
      g.adadiscard = (if s.cfg.wOpen.getLsbD 19 then s.x[i.val].getLsbD 19 else s.dscr.adadiscard) ∧
      g.stickyUnd = (if s.cfg.wOpen.getLsbD 8 then s.x[i.val].getLsbD 8 else s.dscr.stickyUnd) ∧
      g.stickyAabt = (if s.cfg.wOpen.getLsbD 7 then s.x[i.val].getLsbD 7 else s.dscr.stickyAabt) ∧
      g.stickySabt = (if s.cfg.wOpen.getLsbD 6 then s.x[i.val].getLsbD 6 else s.dscr.stickySabt) ∧
      (∀ k < 4, g.moe.getLsbD k =
        (if s.cfg.wOpen.getLsbD (k + 2) then s.x[i.val].getLsbD (k + 2) else s.dscr.moe.getLsbD k)) ∧
      g.pipeadv = true ∧ g.instrcompl = s.dscr.instrcompl ∧ g.instrcomplL = s.dscr.instrcomplL ∧
      g.restarted = s.dscr.restarted ∧ g.halted = s.dscr.halted

/-- With the condition passed, `<Rd>` 0 to 14 and the access permitted, the MCR refuses data with a reserved bit, the
reserved mode, or bit 13 outside debug state, and answers a next state on any other data (10_state.md section 8). -/
def Obligations.McrRefusesExactlyBadData : Prop :=
  ∀ (s : State) (c : Cond) (i : Fin 15),
    c ≠ 0b1111#4 → conditionPassed s c = true →
    (s.user = false ∨ (s.dscr.comms = false ∧ s.cfg.userDscrWrite = .permitted)) →
    (s.x[i.val] &&& 0x90C70200#32 ≠ 0#32 → exec (.mcrDbgdscr c (.gpr i)) s = .refused .sbzpViolated) ∧
    (s.x[i.val] &&& 0x90C70200#32 = 0#32 → s.x[i.val].extractLsb' 20 2 = 0b11#2 →
      exec (.mcrDbgdscr c (.gpr i)) s = .refused .reservedDtrMode) ∧
    (s.x[i.val] &&& 0x90C70200#32 = 0#32 → s.x[i.val].extractLsb' 20 2 ≠ 0b11#2 → s.x[i.val].getLsbD 13 = true →
      s.dscr.halted = false → exec (.mcrDbgdscr c (.gpr i)) s = .refused .itrEnOutsideDebugState) ∧
    ((∃ t, exec (.mcrDbgdscr c (.gpr i)) s = .next t) ↔
      s.x[i.val] &&& 0x90C70200#32 = 0#32 ∧ s.x[i.val].extractLsb' 20 2 ≠ 0b11#2 ∧
        (s.x[i.val].getLsbD 13 = true → s.dscr.halted = true))

/-- Either instruction whose condition fails has no effect but the pc advance, in normal state, and retirement,
whatever its register operand is, 15 included; in debug state the instruction from DBGITR counts as executed, a stage
of the model's own (30_encoding.md section 4, 40_cp14_access.md section 1; D22, log entry 13). -/
def Obligations.FailedConditionOnlyRetires : Prop :=
  ∀ (s : State) (i : Instr), i.cond ≠ 0b1111#4 → conditionPassed s i.cond = false →
    exec i s = .next
      { s with
        pc := if s.dscr.halted then s.pc else s.pc + 4#32
        dscr := { s.dscr with pipeadv := true }
        issue := if s.dscr.halted then s.issue.execute else s.issue }

/-- Either instruction with `<Rd>` = 15 is refused once its condition has passed (30_encoding.md section 4; D21). -/
def Obligations.RdFifteenIsRefused : Prop :=
  ∀ (s : State) (i : Instr), i.cond ≠ 0b1111#4 → conditionPassed s i.cond = true → i.rd = .r15 →
    exec i s = .refused .rdIs15

/-- In User mode with `comms` set, either instruction takes the Undefined Instruction exception whatever its data is:
no register, no memory and no field of DBGDSCR changes, but `sticky_und` in debug state; the pc stays; nothing
retires; the trap waits with the state's pc, in debug state too, where the instruction has none (60_exceptions.md
sections 2 and 3; D25, log entries 11 and 35); in debug state it ends the instruction from DBGITR (log entry 13). -/
def Obligations.UserAccessWithCommsSetTraps : Prop :=
  ∀ (s : State) (i : Instr) (r : Fin 15),
    i.cond ≠ 0b1111#4 → conditionPassed s i.cond = true → i.rd = .gpr r → s.user = true → s.dscr.comms = true →
    exec i s = .next
      { s with
        handover := s.handover ++ [⟨.undefinedInstruction, s.pc⟩]
        dscr := { s.dscr with stickyUnd := s.dscr.stickyUnd || s.dscr.halted }
        issue := if s.dscr.halted then s.issue.except else s.issue }

/-- In User mode with `comms` clear, the MCR takes the same exception where the parameter `USER_DSCR_WRITE` says so,
and otherwise does exactly what it does in a privileged mode, next state or refusal, with the mode itself unchanged
(60_exceptions.md section 2; D20, log entry 3; the trap by log entries 11, 13 and 35). -/
def Obligations.UserWriteFollowsItsParameter : Prop :=
  ∀ (s : State) (c : Cond) (i : Fin 15),
    c ≠ 0b1111#4 → conditionPassed s c = true → s.user = true → s.dscr.comms = false →
    (s.cfg.userDscrWrite = .undefinedInstruction →
      exec (.mcrDbgdscr c (.gpr i)) s = .next
        { s with
          handover := s.handover ++ [⟨.undefinedInstruction, s.pc⟩]
          dscr := { s.dscr with stickyUnd := s.dscr.stickyUnd || s.dscr.halted }
          issue := if s.dscr.halted then s.issue.except else s.issue }) ∧
    (s.cfg.userDscrWrite = .permitted →
      (∀ t, exec (.mcrDbgdscr c (.gpr i)) { s with user := false } = .next t →
        exec (.mcrDbgdscr c (.gpr i)) s = .next { t with user := true }) ∧
      (∀ e, exec (.mcrDbgdscr c (.gpr i)) { s with user := false } = .refused e →
        exec (.mcrDbgdscr c (.gpr i)) s = .refused e))

/-- What the MRC leaves unchanged in every next state, the failed condition and the trap included: every byte of
memory, every general register but `<Rd>`, every field of DBGDSCR but `pipeadv` and, for a trap in debug state,
`sticky_und`, the neighbour registers, the inputs, the mode, the debugger's port and the parameters. -/
def Obligations.MrcFrame : Prop :=
  ∀ (s t : State) (c : Cond) (r : Rd), exec (.mrcDbgdscr c r) s = .next t →
    (∀ a, t.mem.read a = s.mem.read a) ∧
    (∀ j : Fin 15, r ≠ .gpr j → t.x[j.val] = s.x[j.val]) ∧
    t.dscr = { s.dscr with pipeadv := t.dscr.pipeadv, stickyUnd := t.dscr.stickyUnd } ∧
    (s.dscr.halted = false ∨ t.handover = s.handover → t.dscr.stickyUnd = s.dscr.stickyUnd) ∧
    t = { s with
      x := t.x, pc := t.pc, dscr := t.dscr, issue := t.issue, handover := t.handover, draws := t.draws }

/-- What the MCR leaves unchanged in every next state: every byte of memory, every general register, the live and
latched instruction-complete flags, bits 1 and 0, the neighbour registers, the inputs, the mode, the debugger's port,
the parameters and the draw counter. -/
def Obligations.McrFrame : Prop :=
  ∀ (s t : State) (c : Cond) (r : Rd), exec (.mcrDbgdscr c r) s = .next t →
    (∀ a, t.mem.read a = s.mem.read a) ∧
    (∀ j : Fin 15, t.x[j.val] = s.x[j.val]) ∧
    t.dscr.instrcompl = s.dscr.instrcompl ∧ t.dscr.instrcomplL = s.dscr.instrcomplL ∧
    t.dscr.restarted = s.dscr.restarted ∧ t.dscr.halted = s.dscr.halted ∧
    t = { s with pc := t.pc, dscr := t.dscr, issue := t.issue, handover := t.handover }

/-- What a program can rely on of the value an MRC returned: the reserved bits are 0; where `CP14_LATCH_VIEW` is
live, bits 27 and 26 equal bits 30 and 29; in normal state bits 1:0 are 0b10, in a state that meets the invariant
(40_cp14_access.md section 4; D7). -/
def Obligations.ReadValueLaws : Prop :=
  ∀ (s t : State) (c : Cond) (i : Fin 15),
    conditionPassed s c = true → (s.user = false ∨ s.dscr.comms = false) →
    exec (.mrcDbgdscr c (.gpr i)) s = .next t →
    t.x[i.val] &&& 0x90C70200#32 = 0#32 ∧
    (s.cfg.cp14LatchView = .live →
      t.x[i.val].getLsbD 27 = t.x[i.val].getLsbD 30 ∧ t.x[i.val].getLsbD 26 = t.x[i.val].getLsbD 29) ∧
    (s.Inv → s.dscr.halted = false → t.x[i.val].extractLsb' 0 2 = 0b10#2)

/-- An MRC right after an MCR that completed, in a privileged mode, reads the control bits back as written, the
enables masked by DBGEN, bit 25 set, and, where `W_OPEN` is empty, every other field as it was before the MCR, bit 24
only in debug state (40_cp14_access.md section 4; D3, log entry 22). -/
def Obligations.MrcReadsBackWhatMcrWrote : Prop :=
  ∀ (s t u : State) (i j : Fin 15), s.user = false →
    exec (.mcrDbgdscr 0b1110#4 (.gpr i)) s = .next t → exec (.mrcDbgdscr 0b1110#4 (.gpr j)) t = .next u →
    u.x[j.val].extractLsb' 20 2 = s.x[i.val].extractLsb' 20 2 ∧
    u.x[j.val].extractLsb' 10 4 = s.x[i.val].extractLsb' 10 4 ∧
    u.x[j.val].getLsbD 15 = (s.dbgen && s.x[i.val].getLsbD 15) ∧
    u.x[j.val].getLsbD 14 = (s.dbgen && s.x[i.val].getLsbD 14) ∧
    u.x[j.val].getLsbD 25 = true ∧
    (s.dscr.halted = true → u.x[j.val].getLsbD 24 = s.dscr.instrcomplL) ∧
    (openCp14 s.cfg = 0#32 →
      u.x[j.val].getLsbD 30 = s.dscr.rxfull ∧ u.x[j.val].getLsbD 29 = s.dscr.txfull ∧
      (s.cfg.cp14LatchView = .live →
        u.x[j.val].getLsbD 27 = s.dscr.rxfull ∧ u.x[j.val].getLsbD 26 = s.dscr.txfull) ∧
      u.x[j.val].getLsbD 19 = s.dscr.adadiscard ∧ u.x[j.val].getLsbD 8 = s.dscr.stickyUnd ∧
      u.x[j.val].getLsbD 7 = s.dscr.stickyAabt ∧ u.x[j.val].getLsbD 6 = s.dscr.stickySabt ∧
      u.x[j.val].extractLsb' 2 4 = s.dscr.moe ∧ u.x[j.val].getLsbD 1 = s.dscr.restarted ∧
      u.x[j.val].getLsbD 0 = s.dscr.halted)

/-- MRC then MCR of the same register, in a privileged mode with no step between, from any state that meets the
invariant, both complete whatever bit 24 was drawn; with DBGEN HIGH and `W_OPEN` empty they leave every field of
DBGDSCR as it was but `pipeadv`; with DBGEN LOW they clear the two programmed enables as well (40_cp14_access.md
section 3 corner case 7; it rests on the write being visible to the next read, D3 and log entry 22). -/
def Obligations.ReadModifyWriteKeepsTheRegister : Prop :=
  ∀ (s : State) (i : Fin 15), s.Inv → s.user = false → openCp14 s.cfg = 0#32 →
    ∃ t u, exec (.mrcDbgdscr 0b1110#4 (.gpr i)) s = .next t ∧ exec (.mcrDbgdscr 0b1110#4 (.gpr i)) t = .next u ∧
      (s.dbgen = true → u.dscr = { s.dscr with pipeadv := true }) ∧
      (s.dbgen = false → u.dscr = { s.dscr with pipeadv := true, monProg := false, haltProg := false })

/-- A write of DBGDSCR repeated with the same data gives the same record (20_memory.md section 2). -/
def Obligations.RepeatedWriteChangesNothing : Prop :=
  ∀ (o : Word) (f g : DscrState) (d : Word), dscrWrite o f d = .ok g → dscrWrite o g d = .ok g

/-! ### The read views and the fields they show (10_state.md) -/

/-- Bit by bit, what a CP14 read shows: R50's table, the latched positions by `CP14_LATCH_VIEW`, bit 24 a draw
outside debug state, the enables masked by DBGEN, the reserved bits 0 (10_state.md section 7; D7, D18). -/
def Obligations.Cp14ReadViewBits : Prop :=
  ∀ (s : State) (d : Word),
    dscrCp14 s d &&& 0x90C70200#32 = 0#32 ∧
    (dscrCp14 s d).getLsbD 30 = s.dscr.rxfull ∧ (dscrCp14 s d).getLsbD 29 = s.dscr.txfull ∧
    (dscrCp14 s d).getLsbD 27 = (if s.cfg.cp14LatchView = .live then s.dscr.rxfull else d.getLsbD 27) ∧
    (dscrCp14 s d).getLsbD 26 = (if s.cfg.cp14LatchView = .live then s.dscr.txfull else d.getLsbD 26) ∧
    (dscrCp14 s d).getLsbD 25 = s.dscr.pipeadv ∧
    (dscrCp14 s d).getLsbD 24 = (if s.dscr.halted then s.dscr.instrcomplL else d.getLsbD 24) ∧
    (dscrCp14 s d).extractLsb' 20 2 = s.dscr.dtrAccess ∧ (dscrCp14 s d).getLsbD 19 = s.dscr.adadiscard ∧
    (dscrCp14 s d).getLsbD 15 = (s.dbgen && s.dscr.monProg) ∧
    (dscrCp14 s d).getLsbD 14 = (s.dbgen && s.dscr.haltProg) ∧
    (dscrCp14 s d).getLsbD 13 = s.dscr.itrEn ∧ (dscrCp14 s d).getLsbD 12 = s.dscr.comms ∧
    (dscrCp14 s d).getLsbD 11 = s.dscr.intdis ∧ (dscrCp14 s d).getLsbD 10 = s.dscr.dbgack ∧
    (dscrCp14 s d).getLsbD 8 = s.dscr.stickyUnd ∧ (dscrCp14 s d).getLsbD 7 = s.dscr.stickyAabt ∧
    (dscrCp14 s d).getLsbD 6 = s.dscr.stickySabt ∧ (dscrCp14 s d).extractLsb' 2 4 = s.dscr.moe ∧
    (dscrCp14 s d).getLsbD 1 = s.dscr.restarted ∧ (dscrCp14 s d).getLsbD 0 = s.dscr.halted

/-- R51: the APB read view is the CP14 view with bits 27 and 26 replaced: the latches when `locked = 1` and
PADDRDBG31 = 0, the live flags otherwise. -/
def Obligations.ApbReadViewBits : Prop :=
  ∀ (s : State) (p31 : Bool) (d : Word) (k : Nat),
    (dscrApb s p31 d).getLsbD k =
      if k = 27 then (if s.locked = true ∧ p31 = false then s.dscr.rxfullL else s.dscr.rxfull)
      else if k = 26 then (if s.locked = true ∧ p31 = false then s.dscr.txfullL else s.dscr.txfull)
      else (dscrCp14 s d).getLsbD k

/-- `intdis` and `dbgack` (R26, R27) are stored by every write of DBGDSCR that is accepted, show in bits 11 and 10 of
both views, are 0 after a debug reset (D19) and at reset; while `intdis` is 1 neither interrupt input is seen, while it
is 0 each is seen as it is (D31); while `dbgack` is 1 the output DBGACK is HIGH in every state of the processor, while it
is 0 DBGACK is the level the core drives by itself (R155, D30). -/
def Obligations.IntDisAndDbgAck : Prop :=
  (∀ s : State,
    (s.dscr.intdis = true → s.irqSeen = false ∧ s.fiqSeen = false) ∧
    (s.dscr.intdis = false → s.irqSeen = s.irq ∧ s.fiqSeen = s.fiq) ∧
    (s.dscr.dbgack = true → s.dbgackOut = true) ∧
    (s.dscr.dbgack = false → s.dbgackOut = s.coreDbgack)) ∧
  (∀ (o : Word) (f g : DscrState) (d : Word), dscrWrite o f d = .ok g →
    g.intdis = d.getLsbD 11 ∧ g.dbgack = d.getLsbD 10) ∧
  (∀ (s : State) (p31 : Bool) (d : Word),
    (dscrCp14 s d).getLsbD 11 = s.dscr.intdis ∧ (dscrCp14 s d).getLsbD 10 = s.dscr.dbgack ∧
    (dscrApb s p31 d).getLsbD 11 = s.dscr.intdis ∧ (dscrApb s p31 d).getLsbD 10 = s.dscr.dbgack) ∧
  (∀ s : State, s.debugReset.dscr.intdis = false ∧ s.debugReset.dscr.dbgack = false) ∧
  State.reset.dscr.intdis = false ∧ State.reset.dscr.dbgack = false

/-! ### Invariants of every step -/

/-- The machine right after reset meets the invariant. The port is free there, and memory lists nothing, by the model's
choice (log entries 10, and 7 and 8). -/
def Obligations.ResetMeetsTheInvariant : Prop := State.reset.Inv

/-- Every step keeps the invariant: memory in its canonical form, the mode field not reserved, the run state one of
the three of R46, `itr_en` only in debug state, the port held only by an access that can be held. -/
def Obligations.StepKeepsTheInvariant : Prop :=
  ∀ s t : State, s.Inv → step s = .next t → t.Inv

/-- No step changes a parameter (00_scope.md section 4; log entry 3). -/
def Obligations.StepKeepsTheParameters : Prop :=
  ∀ s t : State, step s = .next t → t.cfg = s.cfg

/-- Debug state is entered only from Halting debug-mode, with a listed method-of-entry code recorded, both
instruction-complete flags and `adadiscard` set, `restarted` unchanged, no control bit and no live or latched full
flag changed (42_hardware_events.md sections 3 and 4; D16, D29). -/
def Obligations.DebugStateIsEnteredOnlyFromHaltingMode : Prop :=
  ∀ s t : State, step s = .next t → s.dscr.halted = false → t.dscr.halted = true →
    s.debugMode = .halting ∧ t.dscr.moe ∈ [0b0000#4, 0b0001#4, 0b0011#4, 0b0100#4, 0b1010#4] ∧
    t.dscr.instrcompl = true ∧ t.dscr.instrcomplL = true ∧ t.dscr.adadiscard = true ∧
    t.dscr.restarted = s.dscr.restarted ∧ t.dscr.dtrAccess = s.dscr.dtrAccess ∧ t.dscr.itrEn = s.dscr.itrEn ∧
    t.dscr.comms = s.dscr.comms ∧ t.dscr.intdis = s.dscr.intdis ∧ t.dscr.dbgack = s.dscr.dbgack ∧
    t.dscr.monProg = s.dscr.monProg ∧ t.dscr.haltProg = s.dscr.haltProg ∧
    t.dscr.rxfull = s.dscr.rxfull ∧ t.dscr.txfull = s.dscr.txfull ∧
    t.dscr.rxfullL = s.dscr.rxfullL ∧ t.dscr.txfullL = s.dscr.txfullL

/-- R32 and R33: bit 1 falls only at the start of an exit and rises only at its completion or at a processor reset;
bit 0 rises only at a debug event, scheduled or raised by the debugger's DBGDRCR write, and falls only at the
completion of an exit or at a processor reset; each of those events, and every entry into debug state, moves them so;
no instruction and no debugger write of DBGDSCR moves them; both views show them; at reset they are 1 and 0. -/
def Obligations.RunStateBitsMoveOnlyByTheirEvents : Prop :=
  (∀ s t : State, step s = .next t →
    (s.dscr.restarted = true → t.dscr.restarted = false → s.sched.head? = some (.event .beginExit)) ∧
    (s.dscr.restarted = false → t.dscr.restarted = true →
      s.sched.head? = some (.event .completeExit) ∨ s.sched.head? = some (.event .processorReset)) ∧
    (s.dscr.halted = false → t.dscr.halted = true →
      (∃ k, s.sched.head? = some (.event (.debugEvent k))) ∨
        ∃ d p31 q rest, s.Accesses (.writeDrcr d p31) q rest ∧ t.dbgQueue = q ∧ d.getLsbD 0 = true) ∧
    (s.dscr.halted = true → t.dscr.halted = false →
      s.sched.head? = some (.event .completeExit) ∨ s.sched.head? = some (.event .processorReset))) ∧
  (∀ (s t : State) (rest : List Turn), s.Next (.event .beginExit) rest → step s = .next t →
    t.dscr.restarted = false ∧ t.dscr.halted = true) ∧
  (∀ (s t : State) (e : Event) (rest : List Turn), e = .completeExit ∨ e = .processorReset →
    s.Next (.event e) rest → step s = .next t → t.dscr.restarted = true ∧ t.dscr.halted = false) ∧
  (∀ (i : Instr) (s t : State), exec i s = .next t →
    t.dscr.restarted = s.dscr.restarted ∧ t.dscr.halted = s.dscr.halted) ∧
  (∀ (o : Word) (f g : DscrState) (d : Word), dscrWrite o f d = .ok g →
    g.restarted = f.restarted ∧ g.halted = f.halted) ∧
  (∀ (s : State) (code : BitVec 4),
    (s.enterDebugState code).dscr.halted = true ∧ (s.enterDebugState code).dscr.restarted = s.dscr.restarted) ∧
  (∀ (s : State) (p31 : Bool) (d : Word),
    (dscrCp14 s d).getLsbD 1 = s.dscr.restarted ∧ (dscrCp14 s d).getLsbD 0 = s.dscr.halted ∧
    (dscrApb s p31 d).getLsbD 1 = s.dscr.restarted ∧ (dscrApb s p31 d).getLsbD 0 = s.dscr.halted) ∧
  State.reset.dscr.restarted = true ∧ State.reset.dscr.halted = false

/-- With neither interface storing the three sticky bits, each of them rises only in debug state, or at a reset
that draws it (10_state.md section 3, 42_hardware_events.md section 5; D39). -/
def Obligations.StickyBitsRiseOnlyInDebugState : Prop :=
  ∀ s t : State, s.Closed 0x000001C0#32 → step s = .next t → ¬ s.ResetNext → s.dscr.halted = false →
    (t.dscr.stickyUnd = true → s.dscr.stickyUnd = true) ∧ (t.dscr.stickyAabt = true → s.dscr.stickyAabt = true) ∧
    (t.dscr.stickySabt = true → s.dscr.stickySabt = true)

/-- `pipeadv` is cleared only by a debugger write of DBGDRCR with bit 3 set, or at a reset that draws it, and never by
a write of DBGDSCR (10_state.md section 3, 41_dtr_access_mode.md section 8; D27). -/
def Obligations.PipeAdvIsClearedOnlyByDrcr : Prop :=
  ∀ s t : State, step s = .next t → ¬ s.ResetNext → s.dscr.pipeadv = true → t.dscr.pipeadv = false →
    ∃ d p31 q rest, s.Accesses (.writeDrcr d p31) q rest ∧ t.dbgQueue = q ∧ d.getLsbD 3 = true

/-- With neither interface storing bits 30 and 27, every step keeps "`rxfull` set implies `rxfull_l` set", resets
included: so the overwrite of unread data of R103 is out of reach (41_dtr_access_mode.md section 3). -/
def Obligations.RxFullImpliesItsLatch : Prop :=
  ∀ s t : State, s.Closed 0x48000000#32 → (s.dscr.rxfull = true → s.dscr.rxfullL = true) →
    step s = .next t → (t.dscr.rxfull = true → t.dscr.rxfullL = true)

/-! ### The debugger's accesses (41_dtr_access_mode.md) -/

/-- A debugger read of DBGDSCR always completes, in every DTR access mode: the three latches take the live flags
(unless the read is locked and `LOCKED_READ_LATCHES` is false), the value is the APB view after the latching, and no
other field changes (41_dtr_access_mode.md section 2; D9, D35, D41). -/
def Obligations.DebuggerReadLatchesAndReturns : Prop :=
  ∀ (s : State) (p31 : Bool) (q : List ApbAccess) (rest : List Turn), s.Accesses (.readDscr p31) q rest →
    ((s.locked = false ∨ p31 = true ∨ s.cfg.lockedReadLatches = true) →
      ∃ t, t = ({ s with
          dscr := { s.dscr with
            rxfullL := s.dscr.rxfull, txfullL := s.dscr.txfull, instrcomplL := s.dscr.instrcompl }
          draws := s.draws + 1 } : State) ∧
        step s = .next (t.answered q rest (.value (dscrApb t p31 (Config.freeWord s.draws))))) ∧
    (s.locked = true → p31 = false → s.cfg.lockedReadLatches = false →
      step s = .next (({ s with draws := s.draws + 1 } : State).answered q rest
        (.value (dscrApb s p31 (Config.freeWord s.draws)))))

/-- A debugger write of DBGDSCR, not locked, completes on the data the MCR accepts, whatever the processor's mode and
`comms` are: the control bits are stored, each open bit is stored exactly when the set of the APB interface has it,
which is `W_OPEN` where `W_IFACE_EQUAL` is true and a set of its own where it is false (log entry 4); bits 25, 24, 1
and 0 are ignored, and nothing else changes; all other data is refused, by name (41_dtr_access_mode.md section 2,
10_state.md sections 4 and 8; D4). -/
def Obligations.DebuggerWriteStoresTheRegister : Prop :=
  ∀ (s : State) (d w : Word) (p31 : Bool) (q : List ApbAccess) (rest : List Turn),
    s.Accesses (.writeDscr d p31) q rest → (s.locked = false ∨ p31 = true) →
    w = (if s.cfg.wIfaceEqual then s.cfg.wOpen else s.cfg.wOpenApb) →
    (d &&& 0x90C70200#32 ≠ 0#32 → step s = .refused .sbzpViolated) ∧
    (d &&& 0x90C70200#32 = 0#32 → d.extractLsb' 20 2 = 0b11#2 → step s = .refused .reservedDtrMode) ∧
    (d &&& 0x90C70200#32 = 0#32 → d.extractLsb' 20 2 ≠ 0b11#2 → d.getLsbD 13 = true → s.dscr.halted = false →
      step s = .refused .itrEnOutsideDebugState) ∧
    (d &&& 0x90C70200#32 = 0#32 → d.extractLsb' 20 2 ≠ 0b11#2 → (d.getLsbD 13 = true → s.dscr.halted = true) →
      ∃ g : DscrState, step s = .next (({ s with dscr := g } : State).answered q rest .written) ∧
        g.dtrAccess = d.extractLsb' 20 2 ∧ g.monProg = d.getLsbD 15 ∧ g.haltProg = d.getLsbD 14 ∧
        g.itrEn = d.getLsbD 13 ∧ g.comms = d.getLsbD 12 ∧ g.intdis = d.getLsbD 11 ∧ g.dbgack = d.getLsbD 10 ∧
        g.rxfull = (if w.getLsbD 30 then d.getLsbD 30 else s.dscr.rxfull) ∧
        g.txfull = (if w.getLsbD 29 then d.getLsbD 29 else s.dscr.txfull) ∧
        g.rxfullL = (if w.getLsbD 27 then d.getLsbD 27 else s.dscr.rxfullL) ∧
        g.txfullL = (if w.getLsbD 26 then d.getLsbD 26 else s.dscr.txfullL) ∧
        g.adadiscard = (if w.getLsbD 19 then d.getLsbD 19 else s.dscr.adadiscard) ∧
        g.stickyUnd = (if w.getLsbD 8 then d.getLsbD 8 else s.dscr.stickyUnd) ∧
        g.stickyAabt = (if w.getLsbD 7 then d.getLsbD 7 else s.dscr.stickyAabt) ∧
        g.stickySabt = (if w.getLsbD 6 then d.getLsbD 6 else s.dscr.stickySabt) ∧
        (∀ k < 4, g.moe.getLsbD k = (if w.getLsbD (k + 2) then d.getLsbD (k + 2) else s.dscr.moe.getLsbD k)) ∧
        g.pipeadv = s.dscr.pipeadv ∧ g.instrcompl = s.dscr.instrcompl ∧ g.instrcomplL = s.dscr.instrcomplL ∧
        g.restarted = s.dscr.restarted ∧ g.halted = s.dscr.halted)

/-- A debugger write of DBGDSCR, not locked, stores what R52's write function stores with the open bits of the APB
interface, and refuses what it refuses, for every value of the parameters (log entry 4). Where both interfaces store
the same bits, it is the MCR: whatever a processor does that executes an MCR of the same data with the same record and
parameters, in a privileged mode, the debugger's write does, but for the MCR's own retirement (41_dtr_access_mode.md
section 2; D4). -/
def Obligations.DebuggerWriteStoresLikeMcr : Prop :=
  ∀ (s : State) (d : Word) (p31 : Bool) (q : List ApbAccess) (rest : List Turn),
    s.Accesses (.writeDscr d p31) q rest → (s.locked = false ∨ p31 = true) →
    (∀ g, dscrWrite (openApb s.cfg) s.dscr d = .ok g →
      step s = .next (({ s with dscr := g } : State).answered q rest .written)) ∧
    (∀ e, dscrWrite (openApb s.cfg) s.dscr d = .error e → step s = .refused e) ∧
    (s.cfg.wIfaceEqual = true →
      ∀ (r : State) (i : Fin 15), r.dscr = s.dscr → r.cfg = s.cfg → r.user = false → r.x[i.val] = d →
        (∀ t, exec (.mcrDbgdscr 0b1110#4 (.gpr i)) r = .next t →
          step s = .next (({ s with dscr := { t.dscr with pipeadv := s.dscr.pipeadv } } : State).answered
            q rest .written)) ∧
        (∀ e, exec (.mcrDbgdscr 0b1110#4 (.gpr i)) r = .refused e → step s = .refused e))

/-- Every debugger access but the read of DBGDSCR is refused while `locked = 1` and PADDRDBG31 = 0 (section 9; D10). -/
def Obligations.LockedAccessIsRefused : Prop :=
  ∀ (s : State) (q : List ApbAccess) (rest : List Turn) (d : Word), s.locked = true →
    ∀ a ∈ [ApbAccess.writeDscr d false, .writeDtrrx d false, .readDtrtx false, .writeItr d false, .writeDrcr d false],
      s.Accesses a q rest → step s = .refused .lockedAccess

/-- Non-blocking mode, debugger write of DBGDTRRX: ignored while the latch is set, whatever the live flag is;
otherwise the data is stored and both flags are set (section 3). -/
def Obligations.NonBlockingDtrrxWrite : Prop :=
  ∀ (s : State) (d : Word) (p31 : Bool) (q : List ApbAccess) (rest : List Turn),
    s.Accesses (.writeDtrrx d p31) q rest → (s.locked = false ∨ p31 = true) → s.dscr.dtrAccess = 0b00#2 →
    (s.dscr.rxfullL = true → step s = .next (s.answered q rest .written)) ∧
    (s.dscr.rxfullL = false →
      step s = .next (({ s with dtrrx := d, dscr := { s.dscr with rxfull := true, rxfullL := true } } : State).answered
        q rest .written))

/-- Non-blocking mode, debugger read of DBGDTRTX: while the latch is clear it is ignored and returns a free value;
otherwise it returns DBGDTRTX and clears both flags (section 3). -/
def Obligations.NonBlockingDtrtxRead : Prop :=
  ∀ (s : State) (p31 : Bool) (q : List ApbAccess) (rest : List Turn),
    s.Accesses (.readDtrtx p31) q rest → (s.locked = false ∨ p31 = true) → s.dscr.dtrAccess = 0b00#2 →
    (s.dscr.txfullL = false →
      step s = .next (({ s with draws := s.draws + 1 } : State).answered q rest (.value (Config.freeWord s.draws)))) ∧
    (s.dscr.txfullL = true →
      step s = .next (({ s with dscr := { s.dscr with txfull := false, txfullL := false } } : State).answered
        q rest (.value s.dtrtx)))

/-- Debugger write of DBGITR in Non-blocking mode and in Stall mode: refused outside debug state; while the flag that
gates it is clear, the latch in Non-blocking mode and the live flag in Stall mode, it is ignored, or held; refused
while `itr_en` is clear; otherwise DBGITR holds the word, both flags are cleared and the processor has fetched it
(sections 3 and 4; D14, D15, 90_conflicts.md C2; the
stage of the issued instruction by log entry 13, an earlier one still in flight by log entry 36). -/
def Obligations.ItrWriteIssues : Prop :=
  ∀ (s : State) (d : Word) (p31 : Bool) (q : List ApbAccess) (rest : List Turn) (gate : Bool),
    s.Accesses (.writeItr d p31) q rest → (s.locked = false ∨ p31 = true) →
    ((s.dscr.dtrAccess = 0b00#2 ∧ gate = s.dscr.instrcomplL) ∨
      (s.dscr.dtrAccess = 0b01#2 ∧ gate = s.dscr.instrcompl)) →
    (s.dscr.halted = false → step s = .refused .itrWriteOutsideDebugState) ∧
    (s.dscr.halted = true → gate = false → s.dscr.dtrAccess = 0b00#2 →
      step s = .next (s.answered q rest .written)) ∧
    (s.dscr.halted = true → gate = false → s.dscr.dtrAccess = 0b01#2 →
      step s = .next { s with portHeld := true, sched := rest }) ∧
    (s.dscr.halted = true → gate = true → s.dscr.itrEn = false → step s = .refused .itrWriteWhileDisabled) ∧
    (s.dscr.halted = true → gate = true → s.dscr.itrEn = true →
      step s = .next (({ s with
        itr := d
        dscr := { s.dscr with instrcompl := false, instrcomplL := false }
        issue := .begun d } : State).answered q rest .written))

/-- Stall mode, the DTR accesses: a write of DBGDTRRX is held while `rxfull` is set and a read of DBGDTRTX while
`txfull` is clear, nothing changing but that the port is held; otherwise they transfer as in Non-blocking mode, the
latches not asked (section 4; D11). -/
def Obligations.StallModeTransfers : Prop :=
  ∀ (s : State) (d : Word) (p31 : Bool) (q : List ApbAccess) (rest : List Turn),
    (s.locked = false ∨ p31 = true) → s.dscr.dtrAccess = 0b01#2 →
    (s.Accesses (.writeDtrrx d p31) q rest →
      (s.dscr.rxfull = true → step s = .next { s with portHeld := true, sched := rest }) ∧
      (s.dscr.rxfull = false →
        step s = .next (({ s with dtrrx := d, dscr := { s.dscr with rxfull := true, rxfullL := true } } :
          State).answered q rest .written))) ∧
    (s.Accesses (.readDtrtx p31) q rest →
      (s.dscr.txfull = false → step s = .next { s with portHeld := true, sched := rest }) ∧
      (s.dscr.txfull = true →
        step s = .next (({ s with dscr := { s.dscr with txfull := false, txfullL := false } } : State).answered
          q rest (.value s.dtrtx))))

/-- Fast mode, the DTR accesses: held as in Stall mode first; then refused where the instruction in DBGITR cannot be
issued; otherwise they transfer and the processor fetches the word DBGITR holds, `instrcompl_l` untouched (section 5;
D11, D13; the stage of the issued instruction by log entry 13). -/
def Obligations.FastModeTransfersIssue : Prop :=
  ∀ (s : State) (d : Word) (p31 : Bool) (q : List ApbAccess) (rest : List Turn),
    (s.locked = false ∨ p31 = true) → s.dscr.dtrAccess = 0b10#2 →
    (s.Accesses (.writeDtrrx d p31) q rest →
      (s.dscr.rxfull = true → step s = .next { s with portHeld := true, sched := rest }) ∧
      (s.dscr.rxfull = false → (s.dscr.halted = false ∨ s.dscr.itrEn = false) →
        step s = .refused .fastIssueNotEnabled) ∧
      (s.dscr.rxfull = false → s.dscr.halted = true → s.dscr.itrEn = true → s.dscr.instrcompl = false →
        step s = .refused .fastIssueWhileBusy) ∧
      (s.dscr.rxfull = false → s.dscr.halted = true → s.dscr.itrEn = true → s.dscr.instrcompl = true →
        step s = .next (({ s with
          dtrrx := d
          dscr := { s.dscr with rxfull := true, rxfullL := true, instrcompl := false }
          issue := .begun s.itr } : State).answered q rest .written))) ∧
    (s.Accesses (.readDtrtx p31) q rest →
      (s.dscr.txfull = false → step s = .next { s with portHeld := true, sched := rest }) ∧
      (s.dscr.txfull = true → (s.dscr.halted = false ∨ s.dscr.itrEn = false) →
        step s = .refused .fastIssueNotEnabled) ∧
      (s.dscr.txfull = true → s.dscr.halted = true → s.dscr.itrEn = true → s.dscr.instrcompl = false →
        step s = .refused .fastIssueWhileBusy) ∧
      (s.dscr.txfull = true → s.dscr.halted = true → s.dscr.itrEn = true → s.dscr.instrcompl = true →
        step s = .next (({ s with
          dscr := { s.dscr with txfull := false, txfullL := false, instrcompl := false }
          issue := .begun s.itr } : State).answered q rest (.value s.dtrtx))))

/-- Fast mode, debugger write of DBGITR: refused outside debug state, held while `instrcompl` is clear, otherwise it
only loads the word, whatever `itr_en` is (section 5; D12). -/
def Obligations.FastModeItrWriteOnlyLoads : Prop :=
  ∀ (s : State) (d : Word) (p31 : Bool) (q : List ApbAccess) (rest : List Turn),
    s.Accesses (.writeItr d p31) q rest → (s.locked = false ∨ p31 = true) → s.dscr.dtrAccess = 0b10#2 →
    (s.dscr.halted = false → step s = .refused .itrWriteOutsideDebugState) ∧
    (s.dscr.halted = true → s.dscr.instrcompl = false → step s = .next { s with portHeld := true, sched := rest }) ∧
    (s.dscr.halted = true → s.dscr.instrcompl = true →
      step s = .next (({ s with itr := d } : State).answered q rest .written))

/-- While an access is held, no step makes another access of the debugger or answers one: the queue, the hold and the
debugger's last reply stay, whoever acts; once it no longer holds they stay until a turn of the debugger, which makes
that access and no other (section 9, 20_memory.md section 4; D37, log entry 10). -/
def Obligations.HeldAccessKeepsThePort : Prop :=
  ∀ (s t : State) (a : ApbAccess) (q : List ApbAccess),
    s.portHeld = true → s.dbgQueue = a :: q → step s = .next t →
    (apbAccess a s = .hold ∨ s.sched.head? ≠ some .dbg →
      t.dbgQueue = s.dbgQueue ∧ t.portHeld = true ∧ t.reply = s.reply) ∧
    (apbAccess a s ≠ .hold → s.sched.head? = some .dbg → t.dbgQueue = q ∧ t.portHeld = false)

/-- A Stall mode write of DBGDTRRX that is held goes through at the debugger's turn after the processor has read
DBGDTRRX: the two steps give the processor the old word and leave the new one in the register, full again
(95_test_vectors.md V-ST-1; log entry 10). The processor's transfer moves no pc and does not retire by itself (log
entry 16). -/
def Obligations.HeldWriteFiresWhenTheProcessorReads : Prop :=
  ∀ (s : State) (d : Word) (p31 : Bool) (rd : Fin 15) (q : List ApbAccess) (rest : List Turn),
    s.dbgQueue = .writeDtrrx d p31 :: q → (s.locked = false ∨ p31 = true) →
    s.dscr.dtrAccess = 0b01#2 → s.dscr.rxfull = true → s.dscr.halted = false →
    (s.user = false ∨ s.dscr.comms = false) → s.sched = .event (.procReadDtrrx rd) :: .dbg :: rest →
    Sys2Proof.core.run 2 s = .next
      { s with
        x := s.x.set rd.val s.dtrrx
        dtrrx := d
        dscr := { s.dscr with rxfull := true, rxfullL := true }
        dbgQueue := q
        portHeld := false
        reply := some .written
        sched := rest
        draws := s.draws + 1 }

/-- Non-blocking mode: a debugger that reads DBGDSCR, locked or not, and makes one access right after it learns from
the value read whether the access landed: a write of DBGDTRRX exactly when bit 27 was clear, a read of DBGDTRTX exactly
when bit 26 was set, a write of DBGITR in debug state, with `itr_en` set, exactly when bit 24 was set; an access that
did not land changed nothing, and the DBGDTRTX read then returned a free value (section 3; D41; the stage of the issued
instruction by log entries 13 and 36). -/
def Obligations.PollShowsWhetherTheAccessLands : Prop :=
  ∀ (s t u : State) (p31 p31' : Bool) (a : ApbAccess) (q : List ApbAccess) (rest : List Turn) (v : Word),
    s.dscr.dtrAccess = 0b00#2 → (s.locked = false ∨ p31' = true) →
    s.Accesses (.readDscr p31) (a :: q) (.dbg :: rest) →
    step s = .next t → t.reply = some (.value v) → step t = .next u →
    (∀ d, a = .writeDtrrx d p31' →
      u = if v.getLsbD 27 then t.answered q rest .written
        else ({ t with dtrrx := d, dscr := { t.dscr with rxfull := true, rxfullL := true } } : State).answered
          q rest .written) ∧
    (a = .readDtrtx p31' →
      u = if v.getLsbD 26 then
          ({ t with dscr := { t.dscr with txfull := false, txfullL := false } } : State).answered q rest (.value s.dtrtx)
        else ({ t with draws := t.draws + 1 } : State).answered q rest (.value (Config.freeWord t.draws))) ∧
    (∀ d, a = .writeItr d p31' → s.dscr.halted = true → s.dscr.itrEn = true →
      u = if v.getLsbD 24 then
          ({ t with
            itr := d
            dscr := { t.dscr with instrcompl := false, instrcomplL := false }
            issue := .begun d } : State).answered q rest .written
        else t.answered q rest .written)

/-- A debugger write of DBGDRCR with bit 0 clear: bit 3 clears `pipeadv`, bit 2 clears the three sticky bits together,
a 0 in either clears nothing, and nothing else changes (section 8; D27). -/
def Obligations.DrcrWriteClears : Prop :=
  ∀ (s : State) (d : Word) (p31 : Bool) (q : List ApbAccess) (rest : List Turn),
    s.Accesses (.writeDrcr d p31) q rest → (s.locked = false ∨ p31 = true) → d.getLsbD 0 = false →
    step s = .next (({ s with
      dscr := { s.dscr with
        pipeadv := if d.getLsbD 3 then false else s.dscr.pipeadv
        stickyUnd := if d.getLsbD 2 then false else s.dscr.stickyUnd
        stickyAabt := if d.getLsbD 2 then false else s.dscr.stickyAabt
        stickySabt := if d.getLsbD 2 then false else s.dscr.stickySabt } } : State).answered q rest .written)

/-- A debugger write of DBGDRCR with bit 0 set, whatever its other bits: in normal state with Halting debug-mode
enabled the processor enters debug state with method of entry 0b0000, and bits 3 and 2 make their clears in the same
write; otherwise the source gives the halting debug event no outcome (section 8, 42_hardware_events.md section 4; D16,
D27, D29; no instruction left in flight by log entry 30, the pc and the mode kept by log entry 33, a
waiting trap by log entry 41). -/
def Obligations.HaltRequestEntersDebugState : Prop :=
  ∀ (s : State) (d : Word) (p31 : Bool) (q : List ApbAccess) (rest : List Turn),
    s.Accesses (.writeDrcr d p31) q rest → (s.locked = false ∨ p31 = true) → d.getLsbD 0 = true →
    (s.dscr.halted = false → s.dbgen = true → s.dscr.haltProg = true →
      step s = .next (({ s with
        dscr := { s.dscr with
          halted := true, moe := 0b0000#4, instrcompl := true, instrcomplL := true, adadiscard := true
          pipeadv := if d.getLsbD 3 then false else s.dscr.pipeadv
          stickyUnd := if d.getLsbD 2 then false else s.dscr.stickyUnd
          stickyAabt := if d.getLsbD 2 then false else s.dscr.stickyAabt
          stickySabt := if d.getLsbD 2 then false else s.dscr.stickySabt }
        issue := .idle } : State).answered q rest .written)) ∧
    ((s.dscr.halted = true ∨ s.dbgen = false ∨ s.dscr.haltProg = false) →
      step s = .refused .debugEventOutcomeNotInSource)

/-! ### The events (42_hardware_events.md) -/

/-- The processor's read of DBGDTRRX in normal state, where the mode may read: the destination gets the word if the
register is full and a free value if it is empty, `rxfull` is cleared, the latch and every other field stay; in User
mode with `comms` set it takes the Undefined Instruction exception instead, which waits to be handed over (log entry 11).
The transfer moves no pc and does not retire by itself (42_hardware_events.md section 2; D36, log entry 16); a trap that
waits does not stop it (log entry 44). -/
def Obligations.ProcessorReadsDtrrx : Prop :=
  ∀ (s : State) (rd : Fin 15) (rest : List Turn), s.Next (.event (.procReadDtrrx rd)) rest → s.dscr.halted = false →
    ((s.user = false ∨ s.dscr.comms = false) →
      step s = .next
        { s with
          x := s.x.set rd.val (if s.dscr.rxfull then s.dtrrx else Config.freeWord s.draws)
          dscr := { s.dscr with rxfull := false }
          draws := s.draws + 1
          sched := rest }) ∧
    (s.user = true → s.dscr.comms = true →
      step s = .next
        { s with handover := s.handover ++ [⟨.undefinedInstruction, s.pc⟩], sched := rest })

/-- The processor's write of DBGDTRTX in normal state, where the mode may write: the word is stored and `txfull` is 1
afterwards, also when it was 1 before; `rxfull` and the latch stay; in User mode with `comms` set, or where
`USER_DSCR_WRITE` says so, it takes the Undefined Instruction exception instead, which waits to be handed over (log
entry 11). The transfer moves no pc and does not retire by itself (42_hardware_events.md section 2; 90_conflicts.md C1;
D20, D36; the write side of the check by log entry 17, the rest by log entry 16); a trap that waits does not stop it (log
entry 44). -/
def Obligations.ProcessorWritesDtrtx : Prop :=
  ∀ (s : State) (v : Word) (rest : List Turn), s.Next (.event (.procWriteDtrtx v)) rest → s.dscr.halted = false →
    ((s.user = false ∨ (s.dscr.comms = false ∧ s.cfg.userDscrWrite = .permitted)) →
      step s = .next { s with dtrtx := v, dscr := { s.dscr with txfull := true }, sched := rest }) ∧
    (s.user = true → (s.dscr.comms = true ∨ s.cfg.userDscrWrite = .undefinedInstruction) →
      step s = .next
        { s with handover := s.handover ++ [⟨.undefinedInstruction, s.pc⟩], sched := rest })

/-- The DTR transfers in debug state, as the effect of a word issued through DBGITR that is neither MRC nor MCR of
DBGDSCR: the register and flag effects of normal state, after which the instruction counts as executed; where the access
check forbids them they take the Undefined Instruction exception, which sets `sticky_und` and ends the instruction. With
no such word issued they are no step of a run (42_hardware_events.md sections 2 and 5; D36; log entries 11, 13, 15, 16,
17, 35, 42 and 44). -/
def Obligations.DtrTransfersFromDbgitr : Prop :=
  ∀ (s : State) (rest : List Turn), s.dscr.halted = true →
    (∀ w r, s.issue = .begun w → decodeWord w = .error r → s.dscr.instrcompl = false →
      (∀ rd, s.Next (.event (.procReadDtrrx rd)) rest → (s.user = false ∨ s.dscr.comms = false) →
        step s = .next
          { s with
            x := s.x.set rd.val (if s.dscr.rxfull then s.dtrrx else Config.freeWord s.draws)
            dscr := { s.dscr with rxfull := false }
            issue := .executed
            draws := s.draws + 1
            sched := rest }) ∧
      (∀ v, s.Next (.event (.procWriteDtrtx v)) rest →
        (s.user = false ∨ (s.dscr.comms = false ∧ s.cfg.userDscrWrite = .permitted)) →
        step s = .next
          { s with dtrtx := v, dscr := { s.dscr with txfull := true }, issue := .executed, sched := rest }) ∧
      (∀ e, s.Next (.event e) rest → s.user = true →
        ((∃ rd, e = .procReadDtrrx rd) ∧ s.dscr.comms = true ∨
          (∃ v, e = .procWriteDtrtx v) ∧
            (s.dscr.comms = true ∨ s.cfg.userDscrWrite = .undefinedInstruction)) →
        step s = .next
          { s with
            handover := s.handover ++ [⟨.undefinedInstruction, s.pc⟩]
            dscr := { s.dscr with stickyUnd := true }
            issue := .excepted
            sched := rest })) ∧
    (∀ e, s.Next (.event e) rest → ((∃ rd, e = .procReadDtrrx rd) ∨ ∃ v, e = .procWriteDtrtx v) →
      (s.dscr.instrcompl = true ∨ s.issue = .idle ∨ s.issue = .executed ∨ s.issue = .excepted ∨
        ∃ w i, s.issue = .begun w ∧ decodeWord w = .ok i) →
      step s = .refused .eventNotEnabled)

/-- A debug event: in Halting debug-mode every listed kind enters debug state with its own code; in Monitor debug-mode
a breakpoint, a BKPT instruction or a synchronous watchpoint records its code and takes its abort, and nothing else of
DBGDSCR changes; every other combination is refused (section 4; D16, D29, log entries 11, 30,
33, 41 and 44). -/
def Obligations.DebugEventOutcome : Prop :=
  ∀ (s : State) (rest : List Turn),
    (∀ p ∈ [(DebugKind.haltRequest, 0b0000#4), (.breakpoint, 0b0001#4), (.bkptInstruction, 0b0011#4),
        (.externalRequest, 0b0100#4), (.syncWatchpoint, 0b1010#4)],
      s.Next (.event (.debugEvent p.1)) rest → s.dscr.halted = false → s.dbgen = true → s.dscr.haltProg = true →
      step s = .next
        { s with
          dscr := { s.dscr with
            halted := true, moe := p.2, instrcompl := true, instrcomplL := true, adadiscard := true }
          issue := .idle
          sched := rest }) ∧
    (∀ p ∈ [(DebugKind.breakpoint, 0b0001#4, TrapKind.prefetchAbort), (.bkptInstruction, 0b0011#4, .prefetchAbort),
        (.syncWatchpoint, 0b1010#4, .dataAbort)],
      s.Next (.event (.debugEvent p.1)) rest → s.dscr.halted = false → s.dbgen = true → s.dscr.haltProg = false →
      s.dscr.monProg = true →
      step s = .next
        { s with
          dscr := { s.dscr with moe := p.2.1 }
          handover := s.handover ++ [⟨p.2.2, s.pc⟩]
          sched := rest }) ∧
    (∀ k, s.Next (.event (.debugEvent k)) rest →
      (s.dscr.halted = true ∨ s.dbgen = false ∨ (s.dscr.haltProg = false ∧ s.dscr.monProg = false) ∨
        (s.dscr.haltProg = false ∧ (k = .haltRequest ∨ k = .externalRequest)) ∨ ∃ code, k = .unlisted code) →
      step s = .refused .debugEventOutcomeNotInSource)

/-- Leaving debug state: the start clears `restarted` alone; the completion clears `halted` and `adadiscard`, sets
`restarted`, keeps the rest, and is refused while `itr_en` is set (section 3; D17, D34; that the registers, the
pc, the mode, a waiting trap and the stage are kept is the model's, log entries 33, 39 and 43). Events whose precondition is
false are refused, the model's choice of log entry 15. -/
def Obligations.ExitFromDebugState : Prop :=
  ∀ (s : State) (rest : List Turn),
    (s.Next (.event .beginExit) rest →
      (s.dscr.halted = true → step s = .next { s with dscr := { s.dscr with restarted := false }, sched := rest }) ∧
      (s.dscr.halted = false → step s = .refused .eventNotEnabled)) ∧
    (s.Next (.event .completeExit) rest →
      (s.dscr.halted = true → s.dscr.restarted = false → s.dscr.itrEn = false →
        step s = .next
          { s with dscr := { s.dscr with halted := false, restarted := true, adadiscard := false }, sched := rest }) ∧
      (s.dscr.halted = true → s.dscr.restarted = false → s.dscr.itrEn = true →
        step s = .refused .itrEnOutsideDebugState) ∧
      ((s.dscr.halted = false ∨ s.dscr.restarted = true) → step s = .refused .eventNotEnabled))

/-- Exceptions in debug state: an Undefined Instruction exception sets `sticky_und`, a synchronous Data Abort sets
`sticky_sabt`, each ending the instruction from DBGITR (log entries 13, 37 and 40) and handing nothing over (log
entry 38); an asynchronous Data Abort sets `sticky_aabt` and, while `adadiscard` is set, does nothing else; while it
is clear the abort goes on to the processor's own handling, and may end the instruction. In normal state an
asynchronous Data Abort changes no field of DBGDSCR and goes to the processor's own handling (section 5; D39, log
entries 12 and 44). -/
def Obligations.ExceptionsInDebugState : Prop :=
  ∀ (s : State) (rest : List Turn),
    (s.Next (.event .undefInDebugState) rest → s.dscr.halted = true →
      step s = .next
        { s with dscr := { s.dscr with stickyUnd := true }, issue := s.issue.except, sched := rest }) ∧
    (s.Next (.event .syncAbortInDebugState) rest → s.dscr.halted = true →
      step s = .next
        { s with dscr := { s.dscr with stickySabt := true }, issue := s.issue.except, sched := rest }) ∧
    (∀ ends, s.Next (.event (.asyncAbort ends)) rest →
      (s.dscr.halted = true → s.dscr.adadiscard = true →
        step s = .next { s with dscr := { s.dscr with stickyAabt := true }, sched := rest }) ∧
      (s.dscr.halted = true → s.dscr.adadiscard = false →
        step s = .next
          { s with
            dscr := { s.dscr with stickyAabt := true }
            handover := s.handover ++ [⟨.asyncDataAbort, s.pc⟩]
            issue := if ends then s.issue.except else s.issue
            sched := rest }) ∧
      (s.dscr.halted = false →
        step s = .next { s with handover := s.handover ++ [⟨.asyncDataAbort, s.pc⟩], sched := rest }))

/-- The completion of an instruction from DBGITR sets the live flag, not the latch, and retires it, unless it ended
in an exception; so it does with no stage held, which only a debug reset's draw can leave beside a clear flag. An MRC
or MCR that has had no effect yet cannot complete, and any other word that has had none, a DTR transfer not yet made or
a word outside the spec, is refused as out of scope. Where its precondition is false the event is refused (section 5;
D16, D40, log entries 13, 15 and 40). -/
def Obligations.IssueCompletion : Prop :=
  ∀ (s : State) (rest : List Turn), s.Next (.event .issueComplete) rest →
    (s.dscr.halted = true → s.dscr.instrcompl = false →
      (s.issue = .executed ∨ s.issue = .idle →
        step s = .next
          { s with dscr := { s.dscr with instrcompl := true, pipeadv := true }, issue := .idle, sched := rest }) ∧
      (s.issue = .excepted →
        step s = .next { s with dscr := { s.dscr with instrcompl := true }, issue := .idle, sched := rest }) ∧
      (∀ w i, s.issue = .begun w → decodeWord w = .ok i → step s = .refused .eventNotEnabled) ∧
      (∀ w r, s.issue = .begun w → decodeWord w = .error r → step s = .refused .notInScope)) ∧
    (s.dscr.halted = false ∨ s.dscr.instrcompl = true → step s = .refused .eventNotEnabled)

/-- R153: a change of DBGEN changes no stored field; from the next step on bits 15 and 14 of both read views and the
debug-mode use the new level: 0 and no debug-mode while it is LOW, the programmed values while it is HIGH. -/
def Obligations.DbgenMasksTheEnables : Prop :=
  ∀ (s : State) (b : Bool) (rest : List Turn), s.Next (.event (.setDbgen b)) rest →
    ∃ t, step s = .next t ∧ t = { s with dbgen := b, sched := rest } ∧
      (∀ d p31, (dscrCp14 t d).getLsbD 15 = (b && s.dscr.monProg) ∧
        (dscrCp14 t d).getLsbD 14 = (b && s.dscr.haltProg) ∧
        (dscrApb t p31 d).getLsbD 15 = (b && s.dscr.monProg) ∧
        (dscrApb t p31 d).getLsbD 14 = (b && s.dscr.haltProg)) ∧
      t.debugMode =
        (if b && s.dscr.haltProg then .halting else if b && s.dscr.monProg then .monitor else .noDebugMode)

/-- A change of the locked bit changes no field of DBGDSCR (R156); later accesses use the new value: the view of a read
with PADDRDBG31 = 0 and whether such a read latches (R101, D9), and the refusal of every other such access (R120,
D10). -/
def Obligations.LockedBitChangesOnlyAccesses : Prop :=
  ∀ (s : State) (b : Bool) (rest : List Turn), s.Next (.event (.setLocked b)) rest →
    ∃ t, step s = .next t ∧ t = { s with locked := b, sched := rest } ∧
      (∀ d, (dscrApb t false d).getLsbD 27 = (if b then s.dscr.rxfullL else s.dscr.rxfull) ∧
        (dscrApb t false d).getLsbD 26 = (if b then s.dscr.txfullL else s.dscr.txfull)) ∧
      (t.latchForRead false).dscr =
        (if b && !s.cfg.lockedReadLatches then s.dscr
         else { s.dscr with
           rxfullL := s.dscr.rxfull, txfullL := s.dscr.txfull, instrcomplL := s.dscr.instrcompl }) ∧
      (∀ d, b = true →
        ∀ a ∈ [ApbAccess.writeDscr d false, .writeDtrrx d false, .readDtrtx false, .writeItr d false,
          .writeDrcr d false], apbAccess a t = .refuse .lockedAccess)

/-- In normal state, while a trap waits, the processor's turn is refused until the rest of the processor says where it
went on; then nothing waits, and no field of DBGDSCR has been saved or restored (60_exceptions.md section 3; D25, log
entries 11, 26 and 39; an empty schedule is the processor's turn by log entry 9). -/
def Obligations.TrapWaitsToBeHandedOver : Prop :=
  ∀ (s : State) (rest : List Turn), s.dscr.halted = false → s.handover ≠ [] →
    (s.ProcNext rest → step s = .refused .exceptionEntryNotInSource) ∧
    (∀ x pc user, s.Next (.event (.outsideProcessor x pc user)) rest →
      step s = .next { s with x := x, pc := pc, user := user, handover := [], sched := rest })

/-! ### Resets (70_reset_and_hazards.md) -/

/-- A PRESETDBGn event: the stated fields take their reset values, bits 1:0 stay, and the processor's registers, the
pc, the mode, memory, the pins, the held access (R190) and the stage of an issued instruction (log entry 42) are left
alone; nothing is said of the fields with no stated value
(70_reset_and_hazards.md section 1; D19, log entry 19). -/
def Obligations.DebugResetValues : Prop :=
  ∀ (s : State) (rest : List Turn), s.Next (.event .debugReset) rest →
    ∃ t, step s = .next t ∧
      t.dscr.rxfull = false ∧ t.dscr.txfull = false ∧ t.dscr.dtrAccess = 0b00#2 ∧ t.dscr.monProg = false ∧
      t.dscr.haltProg = false ∧ t.dscr.itrEn = false ∧ t.dscr.comms = false ∧ t.dscr.intdis = false ∧
      t.dscr.dbgack = false ∧ t.dscr.restarted = s.dscr.restarted ∧ t.dscr.halted = s.dscr.halted ∧
      t = { s with
        dscr := t.dscr, dtrrx := t.dtrrx, dtrtx := t.dtrtx, itr := t.itr, draws := t.draws, sched := rest }

/-- A processor reset: refused where it would leave `itr_en` set outside debug state; otherwise bits 1:0 are 0b10, and
the other fields are as a debug reset leaves them where `PROC_RESET_RESETS_CONTROL` says so, and unchanged where it
does not; memory, the neighbour registers in the second case, the mode, the pins and the stage of an issued instruction
stay (section 1; D19, log entries 3, 18 and 43). -/
def Obligations.ProcessorResetValues : Prop :=
  ∀ (s : State) (rest : List Turn), s.Next (.event .processorReset) rest →
    (s.cfg.procResetResetsControl = false → s.dscr.itrEn = true → step s = .refused .itrEnOutsideDebugState) ∧
    (s.cfg.procResetResetsControl = false → s.dscr.itrEn = false →
      ∃ t, step s = .next t ∧ t.dscr = { s.dscr with restarted := true, halted := false } ∧
        t = { s with
          dscr := t.dscr, x := t.x, pc := t.pc, handover := [], draws := t.draws, sched := rest }) ∧
    (s.cfg.procResetResetsControl = true →
      ∃ t, step s = .next t ∧ t.dscr.PoweredUp ∧
        t = { s with
          dscr := t.dscr, x := t.x, pc := t.pc, handover := [], dtrrx := t.dtrrx, dtrtx := t.dtrtx, itr := t.itr,
          draws := t.draws, sched := rest })

/-- After both resets in either order, from any state the first does not refuse, the state is the power-up state: the
stated fields have their values, an MRC's view is 0x00000002 outside the unspecified bits where `CP14_LATCH_VIEW` is
live, there is no debug-mode, and neither interrupt is inhibited (section 1; D19). -/
def Obligations.PowerUpState : Prop :=
  ∀ (s t : State) (rest : List Turn) (e e' : Event),
    (e = .processorReset ∧ e' = .debugReset) ∨ (e = .debugReset ∧ e' = .processorReset) →
    s.sched = .event e :: .event e' :: rest → Sys2Proof.core.run 2 s = .next t →
    t.dscr.PoweredUp ∧ t.debugMode = .noDebugMode ∧ t.irqSeen = t.irq ∧ t.fiqSeen = t.fiq ∧
    (t.cfg.cp14LatchView = .live → ∀ d, dscrCp14 t d &&& ~~~0x030801FC#32 = 0x00000002#32)

/-! ### A session -/

/-- A debugger runs an MRC through DBGITR in Stall mode: the write of DBGITR, the processor's turn and the completion
leave the read view in the register, bit 24 of it clear and not drawn, the pc where it was, the live flag set, the
latch clear, and the instruction retired (95_test_vectors.md P5 steps 4 and 5; log entry 13). -/
def Obligations.IssuedMrcReturnsTheView : Prop :=
  ∀ (s : State) (i : Fin 15) (p31 : Bool) (q : List ApbAccess) (rest : List Turn),
    s.Accesses (.writeItr (encode (.mrcDbgdscr 0b1110#4 (.gpr i))) p31) q (.proc :: .event .issueComplete :: rest) →
    (s.locked = false ∨ p31 = true) → s.dscr.dtrAccess = 0b01#2 → s.dscr.halted = true → s.dscr.itrEn = true →
    s.dscr.instrcompl = true → (s.user = false ∨ s.dscr.comms = false) →
    ∃ t, Sys2Proof.core.run 3 s = .next t ∧
      t.x[i.val] = dscrCp14 { s with dscr := { s.dscr with instrcomplL := false } } (Config.freeWord s.draws) ∧
      t.x[i.val].getLsbD 24 = false ∧ t.x[i.val].getLsbD 0 = true ∧ t.pc = s.pc ∧
      t.dscr = { s.dscr with instrcompl := true, instrcomplL := false, pipeadv := true } ∧
      t.issue = .idle ∧ t.dbgQueue = q ∧ t.reply = some .written
end

