-- ==== Sys2Proof/Laws/Codec.lean ====
section
/-! SUPPORT. The small laws of the encoding: bytes and words, register numbers, the fields of an encoded row. -/

namespace Sys2Proof

/-- Four bytes of a word put together again are the word, in either byte order. -/
@[simp] theorem wordOfBytes_bytes (e : Endian) (w : Word) :
    (match e with
     | .little => wordOfBytes e (byteOfWord w 0) (byteOfWord w 1) (byteOfWord w 2) (byteOfWord w 3)
     | .big => wordOfBytes e (byteOfWord w 3) (byteOfWord w 2) (byteOfWord w 1) (byteOfWord w 0)) = w := by
  have key : byteOfWord w 3 ++ byteOfWord w 2 ++ byteOfWord w 1 ++ byteOfWord w 0 = w := by
    apply BitVec.eq_of_getLsbD_eq
    intro i hi
    simp only [byteOfWord, BitVec.getLsbD_append, BitVec.getLsbD_extractLsb']
    by_cases h0 : i < 8
    · simp [h0]
    · by_cases h1 : i < 16
      · simp [h0, show i - 8 < 8 by omega, show 8 + (i - 8) = i by omega]
      · by_cases h2 : i < 24
        · simp [h0, show ¬ i - 8 < 8 by omega, show i - 8 - 8 < 8 by omega, show 16 + (i - 8 - 8) = i by omega]
        · simp [h0, show ¬ i - 8 < 8 by omega, show ¬ i - 8 - 8 < 8 by omega, show i - 8 - 8 - 8 < 8 by omega,
            show 24 + (i - 8 - 8 - 8) = i by omega]
  cases e <;> exact key

/-- Decoding the bytes a word is laid out in reads that word. -/
theorem decode_bytesOfWord (e : Endian) (w : Word) (rest : List Byte) :
    decode e (bytesOfWord e w ++ rest) =
      match decodeWord w with
      | .ok i => .ok (i, rest)
      | .error r => .error r := by
  cases e
  · have h := wordOfBytes_bytes .little w
    simp only [bytesOfWord, List.cons_append, List.nil_append, decode]
    simp only at h
    rw [h]
    all_goals cases decodeWord w <;> rfl
  · have h := wordOfBytes_bytes .big w
    simp only [bytesOfWord, List.cons_append, List.nil_append, decode]
    simp only at h
    rw [h]
    all_goals cases decodeWord w <;> rfl

@[simp] theorem length_bytesOfWord (e : Endian) (w : Word) : (bytesOfWord e w).length = 4 := by
  cases e <;> rfl

@[simp] theorem rdOfNumber_numberOfRd (r : Rd) : rdOfNumber (numberOfRd r) = r := by
  cases r with
  | gpr i => revert i; decide
  | r15 => decide

theorem numberOfRd_rdOfNumber (n : BitVec 4) : numberOfRd (rdOfNumber n) = n := by
  revert n; decide

/-- The condition field of an encoded row, for a pattern that leaves it free. -/
theorem condField_encodeRow (p : Word) (c : Cond) (r : Rd) (hp : condField p = 0#4) :
    condField (encodeRow p c r) = c := by
  apply BitVec.eq_of_getLsbD_eq
  intro i hi
  have h := congrArg (fun v => v.getLsbD i) hp
  simp only [condField, BitVec.getLsbD_extractLsb'] at h
  simp only [condField, encodeRow, BitVec.getLsbD_extractLsb', BitVec.getLsbD_or, BitVec.getLsbD_shiftLeft,
    BitVec.getLsbD_setWidth, BitVec.truncate_eq_setWidth]
  simp only [hi, decide_true, Bool.true_and, BitVec.getLsbD_zero] at h
  have hr : (numberOfRd r).getLsbD (28 + i - 12) = false := BitVec.getLsbD_of_ge _ _ (by omega)
  rw [h, hr]
  simp [hi, show 28 + i < 32 by omega, show i < 32 by omega]

/-- The register field of an encoded row, for a pattern that leaves it free. -/
theorem rdField_encodeRow (p : Word) (c : Cond) (r : Rd) (hp : rdField p = 0#4) :
    rdField (encodeRow p c r) = numberOfRd r := by
  apply BitVec.eq_of_getLsbD_eq
  intro i hi
  have h := congrArg (fun v => v.getLsbD i) hp
  simp only [rdField, BitVec.getLsbD_extractLsb'] at h
  simp only [rdField, encodeRow, BitVec.getLsbD_extractLsb', BitVec.getLsbD_or, BitVec.getLsbD_shiftLeft,
    BitVec.getLsbD_setWidth, BitVec.truncate_eq_setWidth]
  simp only [hi, decide_true, Bool.true_and, BitVec.getLsbD_zero] at h
  rw [h]
  simp [hi, show 12 + i < 32 by omega, show 12 + i < 28 by omega, show i < 32 by omega]

/-- The fixed bits of an encoded row are the row's pattern. -/
theorem encodeRow_and_rowMask (p : Word) (c : Cond) (r : Rd) (hp : p &&& rowMask = p) :
    encodeRow p c r &&& rowMask = p := by
  have hc : ∀ c : Cond, (c.zeroExtend 32 <<< 28) &&& rowMask = 0#32 := by decide
  have hr : ∀ n : BitVec 4, (n.zeroExtend 32 <<< 12) &&& rowMask = 0#32 := by decide
  rw [encodeRow, BitVec.and_comm, BitVec.and_or_distrib_left, BitVec.and_or_distrib_left,
    BitVec.and_comm rowMask p, hp, BitVec.and_comm rowMask, hc, BitVec.and_comm rowMask, hr]
  simp

end Sys2Proof
end

