-- ==== Sys2Proof/Laws/Memory.lean ====
section
/-! SUPPORT. The laws of instruction memory: read after write, and the canonical form. -/

namespace Sys2Proof.Machine

theorem Memory.read_write_same (m : Memory) (a : Nat) (b : Byte) : (m.write a b).read a = some b := by
  induction m with
  | nil => simp [Memory.write, Memory.read]
  | cons c rest ih =>
    obtain ⟨k, v⟩ := c
    simp only [Memory.write]
    split
    · simp [Memory.read]
    · split
      · simp [Memory.read]
      · simp [Memory.read, *]

theorem Memory.read_write_other (m : Memory) (a a' : Nat) (b : Byte) (h : a' ≠ a) :
    (m.write a b).read a' = m.read a' := by
  induction m with
  | nil => simp [Memory.write, Memory.read, h]
  | cons c rest ih =>
    obtain ⟨k, v⟩ := c
    simp only [Memory.write]
    split
    · simp [Memory.read, h]
    · split
      · subst_vars
        simp [Memory.read, h]
      · simp only [Memory.read, ih]

theorem Memory.all_write (m : Memory) (a n : Nat) (b : Byte) (h : n < a)
    (hm : m.all (fun c => decide (n < c.1)) = true) :
    (m.write a b).all (fun c => decide (n < c.1)) = true := by
  induction m with
  | nil => simpa [Memory.write] using h
  | cons c rest ih =>
    obtain ⟨k, v⟩ := c
    simp only [List.all_cons, Bool.and_eq_true, decide_eq_true_eq] at hm
    simp only [Memory.write]
    split
    · simp only [List.all_cons, Bool.and_eq_true, decide_eq_true_eq]
      exact ⟨h, hm.1, hm.2⟩
    · split
      · simp only [List.all_cons, Bool.and_eq_true, decide_eq_true_eq]
        exact ⟨h, hm.2⟩
      · simp only [List.all_cons, Bool.and_eq_true, decide_eq_true_eq]
        exact ⟨hm.1, ih hm.2⟩

/-- A write keeps the canonical form. -/
theorem Memory.wf_write (m : Memory) (a : Nat) (b : Byte) (ha : a < 2 ^ 32) (hm : m.wf = true) :
    (m.write a b).wf = true := by
  induction m with
  | nil => simpa [Memory.write, Memory.wf] using ha
  | cons c rest ih =>
    obtain ⟨k, v⟩ := c
    simp only [Memory.wf, Bool.and_eq_true, decide_eq_true_eq] at hm
    obtain ⟨⟨hk, hall⟩, hrest⟩ := hm
    simp only [Memory.write]
    split
    · rename_i hlt
      have hfar : rest.all (fun c => decide (a < c.1)) = true := by
        rw [List.all_eq_true] at hall ⊢
        intro c hc
        have := hall c hc
        simp only [decide_eq_true_eq] at this ⊢
        omega
      simp only [Memory.wf, List.all_cons, Bool.and_eq_true, decide_eq_true_eq]
      exact ⟨⟨ha, hlt, hfar⟩, ⟨hk, hall⟩, hrest⟩
    · split
      · rename_i heq
        subst heq
        simp only [Memory.wf, Bool.and_eq_true, decide_eq_true_eq]
        exact ⟨⟨ha, hall⟩, hrest⟩
      · simp only [Memory.wf, Bool.and_eq_true, decide_eq_true_eq]
        exact ⟨⟨hk, Memory.all_write rest a k b (by omega) hall⟩, ih hrest⟩

/-- Placing bytes leaves every address outside them alone. -/
theorem Memory.read_writeBytes_other (bs : List Byte) (m : Memory) (a a' : Nat)
    (h : a' < a ∨ a + bs.length ≤ a') : (m.writeBytes a bs).read a' = m.read a' := by
  induction bs generalizing m a with
  | nil => rfl
  | cons b rest ih =>
    simp only [List.length_cons] at h
    rw [Memory.writeBytes, ih _ _ (by omega), Memory.read_write_other _ _ _ _ (by omega)]

/-- Bytes placed at an address are read back from it. -/
theorem Memory.readBytes_writeBytes (bs : List Byte) (m : Memory) (a : Nat) :
    (m.writeBytes a bs).readBytes a bs.length = .ok bs := by
  induction bs generalizing m a with
  | nil => rfl
  | cons b rest ih =>
    have hb : ((m.write a b).writeBytes (a + 1) rest).read a = some b := by
      rw [Memory.read_writeBytes_other _ _ _ _ (by omega), Memory.read_write_same]
    rw [List.length_cons, Memory.writeBytes, Memory.readBytes, hb, ih]

theorem Memory.wf_writeBytes (bs : List Byte) (m : Memory) (a : Nat) (h : a + bs.length ≤ 2 ^ 32)
    (hm : m.wf = true) : (m.writeBytes a bs).wf = true := by
  induction bs generalizing m a with
  | nil => exact hm
  | cons b rest ih =>
    simp only [List.length_cons] at h
    exact ih _ _ (by omega) (Memory.wf_write m a b (by omega) hm)

end Sys2Proof.Machine
end

