-- ==== Sys2Proof/Laws/State.lean ====
section
/-! SUPPORT. One lemma per field of State per named update: what the update leaves in it. -/

namespace Sys2Proof.Machine

/-! ### writeReg -/

@[simp] theorem State.writeReg_cfg (s : State) (i : Fin 15) (v : Word) :
    (s.writeReg i v).cfg = s.cfg := rfl
@[simp] theorem State.writeReg_x (s : State) (i : Fin 15) (v : Word) :
    (s.writeReg i v).x = s.x.set i.val v := rfl
@[simp] theorem State.writeReg_pc (s : State) (i : Fin 15) (v : Word) :
    (s.writeReg i v).pc = s.pc := rfl
@[simp] theorem State.writeReg_dscr (s : State) (i : Fin 15) (v : Word) :
    (s.writeReg i v).dscr = s.dscr := rfl
@[simp] theorem State.writeReg_dtrrx (s : State) (i : Fin 15) (v : Word) :
    (s.writeReg i v).dtrrx = s.dtrrx := rfl
@[simp] theorem State.writeReg_dtrtx (s : State) (i : Fin 15) (v : Word) :
    (s.writeReg i v).dtrtx = s.dtrtx := rfl
@[simp] theorem State.writeReg_itr (s : State) (i : Fin 15) (v : Word) :
    (s.writeReg i v).itr = s.itr := rfl
@[simp] theorem State.writeReg_dbgen (s : State) (i : Fin 15) (v : Word) :
    (s.writeReg i v).dbgen = s.dbgen := rfl
@[simp] theorem State.writeReg_locked (s : State) (i : Fin 15) (v : Word) :
    (s.writeReg i v).locked = s.locked := rfl
@[simp] theorem State.writeReg_user (s : State) (i : Fin 15) (v : Word) :
    (s.writeReg i v).user = s.user := rfl
@[simp] theorem State.writeReg_irq (s : State) (i : Fin 15) (v : Word) :
    (s.writeReg i v).irq = s.irq := rfl
@[simp] theorem State.writeReg_fiq (s : State) (i : Fin 15) (v : Word) :
    (s.writeReg i v).fiq = s.fiq := rfl
@[simp] theorem State.writeReg_coreDbgack (s : State) (i : Fin 15) (v : Word) :
    (s.writeReg i v).coreDbgack = s.coreDbgack := rfl
@[simp] theorem State.writeReg_conds (s : State) (i : Fin 15) (v : Word) :
    (s.writeReg i v).conds = s.conds := rfl
@[simp] theorem State.writeReg_mem (s : State) (i : Fin 15) (v : Word) :
    (s.writeReg i v).mem = s.mem := rfl
@[simp] theorem State.writeReg_issue (s : State) (i : Fin 15) (v : Word) :
    (s.writeReg i v).issue = s.issue := rfl
@[simp] theorem State.writeReg_handover (s : State) (i : Fin 15) (v : Word) :
    (s.writeReg i v).handover = s.handover := rfl
@[simp] theorem State.writeReg_dbgQueue (s : State) (i : Fin 15) (v : Word) :
    (s.writeReg i v).dbgQueue = s.dbgQueue := rfl
@[simp] theorem State.writeReg_portHeld (s : State) (i : Fin 15) (v : Word) :
    (s.writeReg i v).portHeld = s.portHeld := rfl
@[simp] theorem State.writeReg_reply (s : State) (i : Fin 15) (v : Word) :
    (s.writeReg i v).reply = s.reply := rfl
@[simp] theorem State.writeReg_sched (s : State) (i : Fin 15) (v : Word) :
    (s.writeReg i v).sched = s.sched := rfl
@[simp] theorem State.writeReg_draws (s : State) (i : Fin 15) (v : Word) :
    (s.writeReg i v).draws = s.draws := rfl

/-! ### withDscr -/

@[simp] theorem State.withDscr_cfg (s : State) (f : DscrState) :
    (s.withDscr f).cfg = s.cfg := rfl
@[simp] theorem State.withDscr_x (s : State) (f : DscrState) :
    (s.withDscr f).x = s.x := rfl
@[simp] theorem State.withDscr_pc (s : State) (f : DscrState) :
    (s.withDscr f).pc = s.pc := rfl
@[simp] theorem State.withDscr_dscr (s : State) (f : DscrState) :
    (s.withDscr f).dscr = f := rfl
@[simp] theorem State.withDscr_dtrrx (s : State) (f : DscrState) :
    (s.withDscr f).dtrrx = s.dtrrx := rfl
@[simp] theorem State.withDscr_dtrtx (s : State) (f : DscrState) :
    (s.withDscr f).dtrtx = s.dtrtx := rfl
@[simp] theorem State.withDscr_itr (s : State) (f : DscrState) :
    (s.withDscr f).itr = s.itr := rfl
@[simp] theorem State.withDscr_dbgen (s : State) (f : DscrState) :
    (s.withDscr f).dbgen = s.dbgen := rfl
@[simp] theorem State.withDscr_locked (s : State) (f : DscrState) :
    (s.withDscr f).locked = s.locked := rfl
@[simp] theorem State.withDscr_user (s : State) (f : DscrState) :
    (s.withDscr f).user = s.user := rfl
@[simp] theorem State.withDscr_irq (s : State) (f : DscrState) :
    (s.withDscr f).irq = s.irq := rfl
@[simp] theorem State.withDscr_fiq (s : State) (f : DscrState) :
    (s.withDscr f).fiq = s.fiq := rfl
@[simp] theorem State.withDscr_coreDbgack (s : State) (f : DscrState) :
    (s.withDscr f).coreDbgack = s.coreDbgack := rfl
@[simp] theorem State.withDscr_conds (s : State) (f : DscrState) :
    (s.withDscr f).conds = s.conds := rfl
@[simp] theorem State.withDscr_mem (s : State) (f : DscrState) :
    (s.withDscr f).mem = s.mem := rfl
@[simp] theorem State.withDscr_issue (s : State) (f : DscrState) :
    (s.withDscr f).issue = s.issue := rfl
@[simp] theorem State.withDscr_handover (s : State) (f : DscrState) :
    (s.withDscr f).handover = s.handover := rfl
@[simp] theorem State.withDscr_dbgQueue (s : State) (f : DscrState) :
    (s.withDscr f).dbgQueue = s.dbgQueue := rfl
@[simp] theorem State.withDscr_portHeld (s : State) (f : DscrState) :
    (s.withDscr f).portHeld = s.portHeld := rfl
@[simp] theorem State.withDscr_reply (s : State) (f : DscrState) :
    (s.withDscr f).reply = s.reply := rfl
@[simp] theorem State.withDscr_sched (s : State) (f : DscrState) :
    (s.withDscr f).sched = s.sched := rfl
@[simp] theorem State.withDscr_draws (s : State) (f : DscrState) :
    (s.withDscr f).draws = s.draws := rfl

/-! ### drawn -/

@[simp] theorem State.drawn_cfg (s : State) (n : Nat) :
    (s.drawn n).cfg = s.cfg := rfl
@[simp] theorem State.drawn_x (s : State) (n : Nat) :
    (s.drawn n).x = s.x := rfl
@[simp] theorem State.drawn_pc (s : State) (n : Nat) :
    (s.drawn n).pc = s.pc := rfl
@[simp] theorem State.drawn_dscr (s : State) (n : Nat) :
    (s.drawn n).dscr = s.dscr := rfl
@[simp] theorem State.drawn_dtrrx (s : State) (n : Nat) :
    (s.drawn n).dtrrx = s.dtrrx := rfl
@[simp] theorem State.drawn_dtrtx (s : State) (n : Nat) :
    (s.drawn n).dtrtx = s.dtrtx := rfl
@[simp] theorem State.drawn_itr (s : State) (n : Nat) :
    (s.drawn n).itr = s.itr := rfl
@[simp] theorem State.drawn_dbgen (s : State) (n : Nat) :
    (s.drawn n).dbgen = s.dbgen := rfl
@[simp] theorem State.drawn_locked (s : State) (n : Nat) :
    (s.drawn n).locked = s.locked := rfl
@[simp] theorem State.drawn_user (s : State) (n : Nat) :
    (s.drawn n).user = s.user := rfl
@[simp] theorem State.drawn_irq (s : State) (n : Nat) :
    (s.drawn n).irq = s.irq := rfl
@[simp] theorem State.drawn_fiq (s : State) (n : Nat) :
    (s.drawn n).fiq = s.fiq := rfl
@[simp] theorem State.drawn_coreDbgack (s : State) (n : Nat) :
    (s.drawn n).coreDbgack = s.coreDbgack := rfl
@[simp] theorem State.drawn_conds (s : State) (n : Nat) :
    (s.drawn n).conds = s.conds := rfl
@[simp] theorem State.drawn_mem (s : State) (n : Nat) :
    (s.drawn n).mem = s.mem := rfl
@[simp] theorem State.drawn_issue (s : State) (n : Nat) :
    (s.drawn n).issue = s.issue := rfl
@[simp] theorem State.drawn_handover (s : State) (n : Nat) :
    (s.drawn n).handover = s.handover := rfl
@[simp] theorem State.drawn_dbgQueue (s : State) (n : Nat) :
    (s.drawn n).dbgQueue = s.dbgQueue := rfl
@[simp] theorem State.drawn_portHeld (s : State) (n : Nat) :
    (s.drawn n).portHeld = s.portHeld := rfl
@[simp] theorem State.drawn_reply (s : State) (n : Nat) :
    (s.drawn n).reply = s.reply := rfl
@[simp] theorem State.drawn_sched (s : State) (n : Nat) :
    (s.drawn n).sched = s.sched := rfl
@[simp] theorem State.drawn_draws (s : State) (n : Nat) :
    (s.drawn n).draws = s.draws + n := rfl

/-! ### issueItr -/

@[simp] theorem State.issueItr_cfg (s : State) :
    s.issueItr.cfg = s.cfg := rfl
@[simp] theorem State.issueItr_x (s : State) :
    s.issueItr.x = s.x := rfl
@[simp] theorem State.issueItr_pc (s : State) :
    s.issueItr.pc = s.pc := rfl
@[simp] theorem State.issueItr_dscr (s : State) :
    s.issueItr.dscr = { s.dscr with instrcompl := false } := rfl
@[simp] theorem State.issueItr_dtrrx (s : State) :
    s.issueItr.dtrrx = s.dtrrx := rfl
@[simp] theorem State.issueItr_dtrtx (s : State) :
    s.issueItr.dtrtx = s.dtrtx := rfl
@[simp] theorem State.issueItr_itr (s : State) :
    s.issueItr.itr = s.itr := rfl
@[simp] theorem State.issueItr_dbgen (s : State) :
    s.issueItr.dbgen = s.dbgen := rfl
@[simp] theorem State.issueItr_locked (s : State) :
    s.issueItr.locked = s.locked := rfl
@[simp] theorem State.issueItr_user (s : State) :
    s.issueItr.user = s.user := rfl
@[simp] theorem State.issueItr_irq (s : State) :
    s.issueItr.irq = s.irq := rfl
@[simp] theorem State.issueItr_fiq (s : State) :
    s.issueItr.fiq = s.fiq := rfl
@[simp] theorem State.issueItr_coreDbgack (s : State) :
    s.issueItr.coreDbgack = s.coreDbgack := rfl
@[simp] theorem State.issueItr_conds (s : State) :
    s.issueItr.conds = s.conds := rfl
@[simp] theorem State.issueItr_mem (s : State) :
    s.issueItr.mem = s.mem := rfl
@[simp] theorem State.issueItr_issue (s : State) :
    s.issueItr.issue = .begun s.itr := rfl
@[simp] theorem State.issueItr_handover (s : State) :
    s.issueItr.handover = s.handover := rfl
@[simp] theorem State.issueItr_dbgQueue (s : State) :
    s.issueItr.dbgQueue = s.dbgQueue := rfl
@[simp] theorem State.issueItr_portHeld (s : State) :
    s.issueItr.portHeld = s.portHeld := rfl
@[simp] theorem State.issueItr_reply (s : State) :
    s.issueItr.reply = s.reply := rfl
@[simp] theorem State.issueItr_sched (s : State) :
    s.issueItr.sched = s.sched := rfl
@[simp] theorem State.issueItr_draws (s : State) :
    s.issueItr.draws = s.draws := rfl

/-! ### retire -/

@[simp] theorem State.retire_cfg (s : State) :
    s.retire.cfg = s.cfg := rfl
@[simp] theorem State.retire_x (s : State) :
    s.retire.x = s.x := rfl
@[simp] theorem State.retire_pc (s : State) :
    s.retire.pc = s.pc := rfl
@[simp] theorem State.retire_dscr (s : State) :
    s.retire.dscr = { s.dscr with pipeadv := true } := rfl
@[simp] theorem State.retire_dtrrx (s : State) :
    s.retire.dtrrx = s.dtrrx := rfl
@[simp] theorem State.retire_dtrtx (s : State) :
    s.retire.dtrtx = s.dtrtx := rfl
@[simp] theorem State.retire_itr (s : State) :
    s.retire.itr = s.itr := rfl
@[simp] theorem State.retire_dbgen (s : State) :
    s.retire.dbgen = s.dbgen := rfl
@[simp] theorem State.retire_locked (s : State) :
    s.retire.locked = s.locked := rfl
@[simp] theorem State.retire_user (s : State) :
    s.retire.user = s.user := rfl
@[simp] theorem State.retire_irq (s : State) :
    s.retire.irq = s.irq := rfl
@[simp] theorem State.retire_fiq (s : State) :
    s.retire.fiq = s.fiq := rfl
@[simp] theorem State.retire_coreDbgack (s : State) :
    s.retire.coreDbgack = s.coreDbgack := rfl
@[simp] theorem State.retire_conds (s : State) :
    s.retire.conds = s.conds := rfl
@[simp] theorem State.retire_mem (s : State) :
    s.retire.mem = s.mem := rfl
@[simp] theorem State.retire_issue (s : State) :
    s.retire.issue = s.issue := rfl
@[simp] theorem State.retire_handover (s : State) :
    s.retire.handover = s.handover := rfl
@[simp] theorem State.retire_dbgQueue (s : State) :
    s.retire.dbgQueue = s.dbgQueue := rfl
@[simp] theorem State.retire_portHeld (s : State) :
    s.retire.portHeld = s.portHeld := rfl
@[simp] theorem State.retire_reply (s : State) :
    s.retire.reply = s.reply := rfl
@[simp] theorem State.retire_sched (s : State) :
    s.retire.sched = s.sched := rfl
@[simp] theorem State.retire_draws (s : State) :
    s.retire.draws = s.draws := rfl

/-! ### complete -/

@[simp] theorem State.complete_cfg (s : State) :
    s.complete.cfg = s.cfg := rfl
@[simp] theorem State.complete_x (s : State) :
    s.complete.x = s.x := rfl
@[simp] theorem State.complete_pc (s : State) :
    s.complete.pc = (if s.dscr.halted then s.pc else s.pc + Config.ilen) := rfl
@[simp] theorem State.complete_dscr (s : State) :
    s.complete.dscr = { s.dscr with pipeadv := true } := rfl
@[simp] theorem State.complete_dtrrx (s : State) :
    s.complete.dtrrx = s.dtrrx := rfl
@[simp] theorem State.complete_dtrtx (s : State) :
    s.complete.dtrtx = s.dtrtx := rfl
@[simp] theorem State.complete_itr (s : State) :
    s.complete.itr = s.itr := rfl
@[simp] theorem State.complete_dbgen (s : State) :
    s.complete.dbgen = s.dbgen := rfl
@[simp] theorem State.complete_locked (s : State) :
    s.complete.locked = s.locked := rfl
@[simp] theorem State.complete_user (s : State) :
    s.complete.user = s.user := rfl
@[simp] theorem State.complete_irq (s : State) :
    s.complete.irq = s.irq := rfl
@[simp] theorem State.complete_fiq (s : State) :
    s.complete.fiq = s.fiq := rfl
@[simp] theorem State.complete_coreDbgack (s : State) :
    s.complete.coreDbgack = s.coreDbgack := rfl
@[simp] theorem State.complete_conds (s : State) :
    s.complete.conds = s.conds := rfl
@[simp] theorem State.complete_mem (s : State) :
    s.complete.mem = s.mem := rfl
@[simp] theorem State.complete_issue (s : State) :
    s.complete.issue = (if s.dscr.halted then s.issue.execute else s.issue) := rfl
@[simp] theorem State.complete_handover (s : State) :
    s.complete.handover = s.handover := rfl
@[simp] theorem State.complete_dbgQueue (s : State) :
    s.complete.dbgQueue = s.dbgQueue := rfl
@[simp] theorem State.complete_portHeld (s : State) :
    s.complete.portHeld = s.portHeld := rfl
@[simp] theorem State.complete_reply (s : State) :
    s.complete.reply = s.reply := rfl
@[simp] theorem State.complete_sched (s : State) :
    s.complete.sched = s.sched := rfl
@[simp] theorem State.complete_draws (s : State) :
    s.complete.draws = s.draws := rfl

/-! ### takeException -/

@[simp] theorem State.takeException_cfg (s : State) (k : TrapKind) :
    (s.takeException k).cfg = s.cfg := rfl
@[simp] theorem State.takeException_x (s : State) (k : TrapKind) :
    (s.takeException k).x = s.x := rfl
@[simp] theorem State.takeException_pc (s : State) (k : TrapKind) :
    (s.takeException k).pc = s.pc := rfl
@[simp] theorem State.takeException_dscr (s : State) (k : TrapKind) :
    (s.takeException k).dscr = { s.dscr with stickyUnd := s.dscr.stickyUnd || (decide (k = .undefinedInstruction) && s.dscr.halted) } := rfl
@[simp] theorem State.takeException_dtrrx (s : State) (k : TrapKind) :
    (s.takeException k).dtrrx = s.dtrrx := rfl
@[simp] theorem State.takeException_dtrtx (s : State) (k : TrapKind) :
    (s.takeException k).dtrtx = s.dtrtx := rfl
@[simp] theorem State.takeException_itr (s : State) (k : TrapKind) :
    (s.takeException k).itr = s.itr := rfl
@[simp] theorem State.takeException_dbgen (s : State) (k : TrapKind) :
    (s.takeException k).dbgen = s.dbgen := rfl
@[simp] theorem State.takeException_locked (s : State) (k : TrapKind) :
    (s.takeException k).locked = s.locked := rfl
@[simp] theorem State.takeException_user (s : State) (k : TrapKind) :
    (s.takeException k).user = s.user := rfl
@[simp] theorem State.takeException_irq (s : State) (k : TrapKind) :
    (s.takeException k).irq = s.irq := rfl
@[simp] theorem State.takeException_fiq (s : State) (k : TrapKind) :
    (s.takeException k).fiq = s.fiq := rfl
@[simp] theorem State.takeException_coreDbgack (s : State) (k : TrapKind) :
    (s.takeException k).coreDbgack = s.coreDbgack := rfl
@[simp] theorem State.takeException_conds (s : State) (k : TrapKind) :
    (s.takeException k).conds = s.conds := rfl
@[simp] theorem State.takeException_mem (s : State) (k : TrapKind) :
    (s.takeException k).mem = s.mem := rfl
@[simp] theorem State.takeException_issue (s : State) (k : TrapKind) :
    (s.takeException k).issue = (if s.dscr.halted then s.issue.except else s.issue) := rfl
@[simp] theorem State.takeException_handover (s : State) (k : TrapKind) :
    (s.takeException k).handover = s.handover ++ [⟨k, s.pc⟩] := rfl
@[simp] theorem State.takeException_dbgQueue (s : State) (k : TrapKind) :
    (s.takeException k).dbgQueue = s.dbgQueue := rfl
@[simp] theorem State.takeException_portHeld (s : State) (k : TrapKind) :
    (s.takeException k).portHeld = s.portHeld := rfl
@[simp] theorem State.takeException_reply (s : State) (k : TrapKind) :
    (s.takeException k).reply = s.reply := rfl
@[simp] theorem State.takeException_sched (s : State) (k : TrapKind) :
    (s.takeException k).sched = s.sched := rfl
@[simp] theorem State.takeException_draws (s : State) (k : TrapKind) :
    (s.takeException k).draws = s.draws := rfl

/-! ### enterDebugState -/

@[simp] theorem State.enterDebugState_cfg (s : State) (code : BitVec 4) :
    (s.enterDebugState code).cfg = s.cfg := rfl
@[simp] theorem State.enterDebugState_x (s : State) (code : BitVec 4) :
    (s.enterDebugState code).x = s.x := rfl
@[simp] theorem State.enterDebugState_pc (s : State) (code : BitVec 4) :
    (s.enterDebugState code).pc = s.pc := rfl
@[simp] theorem State.enterDebugState_dscr (s : State) (code : BitVec 4) :
    (s.enterDebugState code).dscr = { s.dscr with halted := true, moe := code, instrcomplL := true, instrcompl := true, adadiscard := true } := rfl
@[simp] theorem State.enterDebugState_dtrrx (s : State) (code : BitVec 4) :
    (s.enterDebugState code).dtrrx = s.dtrrx := rfl
@[simp] theorem State.enterDebugState_dtrtx (s : State) (code : BitVec 4) :
    (s.enterDebugState code).dtrtx = s.dtrtx := rfl
@[simp] theorem State.enterDebugState_itr (s : State) (code : BitVec 4) :
    (s.enterDebugState code).itr = s.itr := rfl
@[simp] theorem State.enterDebugState_dbgen (s : State) (code : BitVec 4) :
    (s.enterDebugState code).dbgen = s.dbgen := rfl
@[simp] theorem State.enterDebugState_locked (s : State) (code : BitVec 4) :
    (s.enterDebugState code).locked = s.locked := rfl
@[simp] theorem State.enterDebugState_user (s : State) (code : BitVec 4) :
    (s.enterDebugState code).user = s.user := rfl
@[simp] theorem State.enterDebugState_irq (s : State) (code : BitVec 4) :
    (s.enterDebugState code).irq = s.irq := rfl
@[simp] theorem State.enterDebugState_fiq (s : State) (code : BitVec 4) :
    (s.enterDebugState code).fiq = s.fiq := rfl
@[simp] theorem State.enterDebugState_coreDbgack (s : State) (code : BitVec 4) :
    (s.enterDebugState code).coreDbgack = s.coreDbgack := rfl
@[simp] theorem State.enterDebugState_conds (s : State) (code : BitVec 4) :
    (s.enterDebugState code).conds = s.conds := rfl
@[simp] theorem State.enterDebugState_mem (s : State) (code : BitVec 4) :
    (s.enterDebugState code).mem = s.mem := rfl
@[simp] theorem State.enterDebugState_issue (s : State) (code : BitVec 4) :
    (s.enterDebugState code).issue = .idle := rfl
@[simp] theorem State.enterDebugState_handover (s : State) (code : BitVec 4) :
    (s.enterDebugState code).handover = s.handover := rfl
@[simp] theorem State.enterDebugState_dbgQueue (s : State) (code : BitVec 4) :
    (s.enterDebugState code).dbgQueue = s.dbgQueue := rfl
@[simp] theorem State.enterDebugState_portHeld (s : State) (code : BitVec 4) :
    (s.enterDebugState code).portHeld = s.portHeld := rfl
@[simp] theorem State.enterDebugState_reply (s : State) (code : BitVec 4) :
    (s.enterDebugState code).reply = s.reply := rfl
@[simp] theorem State.enterDebugState_sched (s : State) (code : BitVec 4) :
    (s.enterDebugState code).sched = s.sched := rfl
@[simp] theorem State.enterDebugState_draws (s : State) (code : BitVec 4) :
    (s.enterDebugState code).draws = s.draws := rfl

/-! ### transferDone -/

@[simp] theorem State.transferDone_cfg (s : State) :
    s.transferDone.cfg = s.cfg := rfl
@[simp] theorem State.transferDone_x (s : State) :
    s.transferDone.x = s.x := rfl
@[simp] theorem State.transferDone_pc (s : State) :
    s.transferDone.pc = s.pc := rfl
@[simp] theorem State.transferDone_dscr (s : State) :
    s.transferDone.dscr = s.dscr := rfl
@[simp] theorem State.transferDone_dtrrx (s : State) :
    s.transferDone.dtrrx = s.dtrrx := rfl
@[simp] theorem State.transferDone_dtrtx (s : State) :
    s.transferDone.dtrtx = s.dtrtx := rfl
@[simp] theorem State.transferDone_itr (s : State) :
    s.transferDone.itr = s.itr := rfl
@[simp] theorem State.transferDone_dbgen (s : State) :
    s.transferDone.dbgen = s.dbgen := rfl
@[simp] theorem State.transferDone_locked (s : State) :
    s.transferDone.locked = s.locked := rfl
@[simp] theorem State.transferDone_user (s : State) :
    s.transferDone.user = s.user := rfl
@[simp] theorem State.transferDone_irq (s : State) :
    s.transferDone.irq = s.irq := rfl
@[simp] theorem State.transferDone_fiq (s : State) :
    s.transferDone.fiq = s.fiq := rfl
@[simp] theorem State.transferDone_coreDbgack (s : State) :
    s.transferDone.coreDbgack = s.coreDbgack := rfl
@[simp] theorem State.transferDone_conds (s : State) :
    s.transferDone.conds = s.conds := rfl
@[simp] theorem State.transferDone_mem (s : State) :
    s.transferDone.mem = s.mem := rfl
@[simp] theorem State.transferDone_issue (s : State) :
    s.transferDone.issue = (if s.dscr.halted then s.issue.execute else s.issue) := rfl
@[simp] theorem State.transferDone_handover (s : State) :
    s.transferDone.handover = s.handover := rfl
@[simp] theorem State.transferDone_dbgQueue (s : State) :
    s.transferDone.dbgQueue = s.dbgQueue := rfl
@[simp] theorem State.transferDone_portHeld (s : State) :
    s.transferDone.portHeld = s.portHeld := rfl
@[simp] theorem State.transferDone_reply (s : State) :
    s.transferDone.reply = s.reply := rfl
@[simp] theorem State.transferDone_sched (s : State) :
    s.transferDone.sched = s.sched := rfl
@[simp] theorem State.transferDone_draws (s : State) :
    s.transferDone.draws = s.draws := rfl

/-! ### normalAbort -/

@[simp] theorem State.normalAbort_cfg (s : State) (e : Bool) :
    (s.normalAbort e).cfg = s.cfg := rfl
@[simp] theorem State.normalAbort_x (s : State) (e : Bool) :
    (s.normalAbort e).x = s.x := rfl
@[simp] theorem State.normalAbort_pc (s : State) (e : Bool) :
    (s.normalAbort e).pc = s.pc := rfl
@[simp] theorem State.normalAbort_dscr (s : State) (e : Bool) :
    (s.normalAbort e).dscr = s.dscr := rfl
@[simp] theorem State.normalAbort_dtrrx (s : State) (e : Bool) :
    (s.normalAbort e).dtrrx = s.dtrrx := rfl
@[simp] theorem State.normalAbort_dtrtx (s : State) (e : Bool) :
    (s.normalAbort e).dtrtx = s.dtrtx := rfl
@[simp] theorem State.normalAbort_itr (s : State) (e : Bool) :
    (s.normalAbort e).itr = s.itr := rfl
@[simp] theorem State.normalAbort_dbgen (s : State) (e : Bool) :
    (s.normalAbort e).dbgen = s.dbgen := rfl
@[simp] theorem State.normalAbort_locked (s : State) (e : Bool) :
    (s.normalAbort e).locked = s.locked := rfl
@[simp] theorem State.normalAbort_user (s : State) (e : Bool) :
    (s.normalAbort e).user = s.user := rfl
@[simp] theorem State.normalAbort_irq (s : State) (e : Bool) :
    (s.normalAbort e).irq = s.irq := rfl
@[simp] theorem State.normalAbort_fiq (s : State) (e : Bool) :
    (s.normalAbort e).fiq = s.fiq := rfl
@[simp] theorem State.normalAbort_coreDbgack (s : State) (e : Bool) :
    (s.normalAbort e).coreDbgack = s.coreDbgack := rfl
@[simp] theorem State.normalAbort_conds (s : State) (e : Bool) :
    (s.normalAbort e).conds = s.conds := rfl
@[simp] theorem State.normalAbort_mem (s : State) (e : Bool) :
    (s.normalAbort e).mem = s.mem := rfl
@[simp] theorem State.normalAbort_issue (s : State) (e : Bool) :
    (s.normalAbort e).issue = (if s.dscr.halted && e then s.issue.except else s.issue) := rfl
@[simp] theorem State.normalAbort_handover (s : State) (e : Bool) :
    (s.normalAbort e).handover = s.handover ++ [⟨.asyncDataAbort, s.pc⟩] := rfl
@[simp] theorem State.normalAbort_dbgQueue (s : State) (e : Bool) :
    (s.normalAbort e).dbgQueue = s.dbgQueue := rfl
@[simp] theorem State.normalAbort_portHeld (s : State) (e : Bool) :
    (s.normalAbort e).portHeld = s.portHeld := rfl
@[simp] theorem State.normalAbort_reply (s : State) (e : Bool) :
    (s.normalAbort e).reply = s.reply := rfl
@[simp] theorem State.normalAbort_sched (s : State) (e : Bool) :
    (s.normalAbort e).sched = s.sched := rfl
@[simp] theorem State.normalAbort_draws (s : State) (e : Bool) :
    (s.normalAbort e).draws = s.draws := rfl

/-! ### resetProcessor -/

@[simp] theorem State.resetProcessor_cfg (s : State) :
    s.resetProcessor.cfg = s.cfg := rfl
@[simp] theorem State.resetProcessor_x (s : State) :
    s.resetProcessor.x = Vector.ofFn fun i => Config.freeWord (s.draws + i.val) := rfl
@[simp] theorem State.resetProcessor_pc (s : State) :
    s.resetProcessor.pc = Config.freeWord (s.draws + 15) := rfl
@[simp] theorem State.resetProcessor_dscr (s : State) :
    s.resetProcessor.dscr = s.dscr := rfl
@[simp] theorem State.resetProcessor_dtrrx (s : State) :
    s.resetProcessor.dtrrx = s.dtrrx := rfl
@[simp] theorem State.resetProcessor_dtrtx (s : State) :
    s.resetProcessor.dtrtx = s.dtrtx := rfl
@[simp] theorem State.resetProcessor_itr (s : State) :
    s.resetProcessor.itr = s.itr := rfl
@[simp] theorem State.resetProcessor_dbgen (s : State) :
    s.resetProcessor.dbgen = s.dbgen := rfl
@[simp] theorem State.resetProcessor_locked (s : State) :
    s.resetProcessor.locked = s.locked := rfl
@[simp] theorem State.resetProcessor_user (s : State) :
    s.resetProcessor.user = s.user := rfl
@[simp] theorem State.resetProcessor_irq (s : State) :
    s.resetProcessor.irq = s.irq := rfl
@[simp] theorem State.resetProcessor_fiq (s : State) :
    s.resetProcessor.fiq = s.fiq := rfl
@[simp] theorem State.resetProcessor_coreDbgack (s : State) :
    s.resetProcessor.coreDbgack = s.coreDbgack := rfl
@[simp] theorem State.resetProcessor_conds (s : State) :
    s.resetProcessor.conds = s.conds := rfl
@[simp] theorem State.resetProcessor_mem (s : State) :
    s.resetProcessor.mem = s.mem := rfl
@[simp] theorem State.resetProcessor_issue (s : State) :
    s.resetProcessor.issue = s.issue := rfl
@[simp] theorem State.resetProcessor_handover (s : State) :
    s.resetProcessor.handover = [] := rfl
@[simp] theorem State.resetProcessor_dbgQueue (s : State) :
    s.resetProcessor.dbgQueue = s.dbgQueue := rfl
@[simp] theorem State.resetProcessor_portHeld (s : State) :
    s.resetProcessor.portHeld = s.portHeld := rfl
@[simp] theorem State.resetProcessor_reply (s : State) :
    s.resetProcessor.reply = s.reply := rfl
@[simp] theorem State.resetProcessor_sched (s : State) :
    s.resetProcessor.sched = s.sched := rfl
@[simp] theorem State.resetProcessor_draws (s : State) :
    s.resetProcessor.draws = s.draws + 16 := rfl

/-! ### debugReset -/

@[simp] theorem State.debugReset_cfg (s : State) :
    s.debugReset.cfg = s.cfg := rfl
@[simp] theorem State.debugReset_x (s : State) :
    s.debugReset.x = s.x := rfl
@[simp] theorem State.debugReset_pc (s : State) :
    s.debugReset.pc = s.pc := rfl
@[simp] theorem State.debugReset_dscr (s : State) :
    s.debugReset.dscr = s.dscr.debugReset (Config.freeWord s.draws) := rfl
@[simp] theorem State.debugReset_dtrrx (s : State) :
    s.debugReset.dtrrx = Config.freeWord (s.draws + 1) := rfl
@[simp] theorem State.debugReset_dtrtx (s : State) :
    s.debugReset.dtrtx = Config.freeWord (s.draws + 2) := rfl
@[simp] theorem State.debugReset_itr (s : State) :
    s.debugReset.itr = Config.freeWord (s.draws + 3) := rfl
@[simp] theorem State.debugReset_dbgen (s : State) :
    s.debugReset.dbgen = s.dbgen := rfl
@[simp] theorem State.debugReset_locked (s : State) :
    s.debugReset.locked = s.locked := rfl
@[simp] theorem State.debugReset_user (s : State) :
    s.debugReset.user = s.user := rfl
@[simp] theorem State.debugReset_irq (s : State) :
    s.debugReset.irq = s.irq := rfl
@[simp] theorem State.debugReset_fiq (s : State) :
    s.debugReset.fiq = s.fiq := rfl
@[simp] theorem State.debugReset_coreDbgack (s : State) :
    s.debugReset.coreDbgack = s.coreDbgack := rfl
@[simp] theorem State.debugReset_conds (s : State) :
    s.debugReset.conds = s.conds := rfl
@[simp] theorem State.debugReset_mem (s : State) :
    s.debugReset.mem = s.mem := rfl
@[simp] theorem State.debugReset_issue (s : State) :
    s.debugReset.issue = s.issue := rfl
@[simp] theorem State.debugReset_handover (s : State) :
    s.debugReset.handover = s.handover := rfl
@[simp] theorem State.debugReset_dbgQueue (s : State) :
    s.debugReset.dbgQueue = s.dbgQueue := rfl
@[simp] theorem State.debugReset_portHeld (s : State) :
    s.debugReset.portHeld = s.portHeld := rfl
@[simp] theorem State.debugReset_reply (s : State) :
    s.debugReset.reply = s.reply := rfl
@[simp] theorem State.debugReset_sched (s : State) :
    s.debugReset.sched = s.sched := rfl
@[simp] theorem State.debugReset_draws (s : State) :
    s.debugReset.draws = s.draws + 4 := rfl

/-! ### fillDtrrx -/

@[simp] theorem State.fillDtrrx_cfg (s : State) (d : Word) :
    (s.fillDtrrx d).cfg = s.cfg := rfl
@[simp] theorem State.fillDtrrx_x (s : State) (d : Word) :
    (s.fillDtrrx d).x = s.x := rfl
@[simp] theorem State.fillDtrrx_pc (s : State) (d : Word) :
    (s.fillDtrrx d).pc = s.pc := rfl
@[simp] theorem State.fillDtrrx_dscr (s : State) (d : Word) :
    (s.fillDtrrx d).dscr = { s.dscr with rxfull := true, rxfullL := true } := rfl
@[simp] theorem State.fillDtrrx_dtrrx (s : State) (d : Word) :
    (s.fillDtrrx d).dtrrx = d := rfl
@[simp] theorem State.fillDtrrx_dtrtx (s : State) (d : Word) :
    (s.fillDtrrx d).dtrtx = s.dtrtx := rfl
@[simp] theorem State.fillDtrrx_itr (s : State) (d : Word) :
    (s.fillDtrrx d).itr = s.itr := rfl
@[simp] theorem State.fillDtrrx_dbgen (s : State) (d : Word) :
    (s.fillDtrrx d).dbgen = s.dbgen := rfl
@[simp] theorem State.fillDtrrx_locked (s : State) (d : Word) :
    (s.fillDtrrx d).locked = s.locked := rfl
@[simp] theorem State.fillDtrrx_user (s : State) (d : Word) :
    (s.fillDtrrx d).user = s.user := rfl
@[simp] theorem State.fillDtrrx_irq (s : State) (d : Word) :
    (s.fillDtrrx d).irq = s.irq := rfl
@[simp] theorem State.fillDtrrx_fiq (s : State) (d : Word) :
    (s.fillDtrrx d).fiq = s.fiq := rfl
@[simp] theorem State.fillDtrrx_coreDbgack (s : State) (d : Word) :
    (s.fillDtrrx d).coreDbgack = s.coreDbgack := rfl
@[simp] theorem State.fillDtrrx_conds (s : State) (d : Word) :
    (s.fillDtrrx d).conds = s.conds := rfl
@[simp] theorem State.fillDtrrx_mem (s : State) (d : Word) :
    (s.fillDtrrx d).mem = s.mem := rfl
@[simp] theorem State.fillDtrrx_issue (s : State) (d : Word) :
    (s.fillDtrrx d).issue = s.issue := rfl
@[simp] theorem State.fillDtrrx_handover (s : State) (d : Word) :
    (s.fillDtrrx d).handover = s.handover := rfl
@[simp] theorem State.fillDtrrx_dbgQueue (s : State) (d : Word) :
    (s.fillDtrrx d).dbgQueue = s.dbgQueue := rfl
@[simp] theorem State.fillDtrrx_portHeld (s : State) (d : Word) :
    (s.fillDtrrx d).portHeld = s.portHeld := rfl
@[simp] theorem State.fillDtrrx_reply (s : State) (d : Word) :
    (s.fillDtrrx d).reply = s.reply := rfl
@[simp] theorem State.fillDtrrx_sched (s : State) (d : Word) :
    (s.fillDtrrx d).sched = s.sched := rfl
@[simp] theorem State.fillDtrrx_draws (s : State) (d : Word) :
    (s.fillDtrrx d).draws = s.draws := rfl

/-! ### emptyDtrtx -/

@[simp] theorem State.emptyDtrtx_cfg (s : State) :
    s.emptyDtrtx.cfg = s.cfg := rfl
@[simp] theorem State.emptyDtrtx_x (s : State) :
    s.emptyDtrtx.x = s.x := rfl
@[simp] theorem State.emptyDtrtx_pc (s : State) :
    s.emptyDtrtx.pc = s.pc := rfl
@[simp] theorem State.emptyDtrtx_dscr (s : State) :
    s.emptyDtrtx.dscr = { s.dscr with txfull := false, txfullL := false } := rfl
@[simp] theorem State.emptyDtrtx_dtrrx (s : State) :
    s.emptyDtrtx.dtrrx = s.dtrrx := rfl
@[simp] theorem State.emptyDtrtx_dtrtx (s : State) :
    s.emptyDtrtx.dtrtx = s.dtrtx := rfl
@[simp] theorem State.emptyDtrtx_itr (s : State) :
    s.emptyDtrtx.itr = s.itr := rfl
@[simp] theorem State.emptyDtrtx_dbgen (s : State) :
    s.emptyDtrtx.dbgen = s.dbgen := rfl
@[simp] theorem State.emptyDtrtx_locked (s : State) :
    s.emptyDtrtx.locked = s.locked := rfl
@[simp] theorem State.emptyDtrtx_user (s : State) :
    s.emptyDtrtx.user = s.user := rfl
@[simp] theorem State.emptyDtrtx_irq (s : State) :
    s.emptyDtrtx.irq = s.irq := rfl
@[simp] theorem State.emptyDtrtx_fiq (s : State) :
    s.emptyDtrtx.fiq = s.fiq := rfl
@[simp] theorem State.emptyDtrtx_coreDbgack (s : State) :
    s.emptyDtrtx.coreDbgack = s.coreDbgack := rfl
@[simp] theorem State.emptyDtrtx_conds (s : State) :
    s.emptyDtrtx.conds = s.conds := rfl
@[simp] theorem State.emptyDtrtx_mem (s : State) :
    s.emptyDtrtx.mem = s.mem := rfl
@[simp] theorem State.emptyDtrtx_issue (s : State) :
    s.emptyDtrtx.issue = s.issue := rfl
@[simp] theorem State.emptyDtrtx_handover (s : State) :
    s.emptyDtrtx.handover = s.handover := rfl
@[simp] theorem State.emptyDtrtx_dbgQueue (s : State) :
    s.emptyDtrtx.dbgQueue = s.dbgQueue := rfl
@[simp] theorem State.emptyDtrtx_portHeld (s : State) :
    s.emptyDtrtx.portHeld = s.portHeld := rfl
@[simp] theorem State.emptyDtrtx_reply (s : State) :
    s.emptyDtrtx.reply = s.reply := rfl
@[simp] theorem State.emptyDtrtx_sched (s : State) :
    s.emptyDtrtx.sched = s.sched := rfl
@[simp] theorem State.emptyDtrtx_draws (s : State) :
    s.emptyDtrtx.draws = s.draws := rfl

/-! ### loadAndIssue -/

@[simp] theorem State.loadAndIssue_cfg (s : State) (d : Word) :
    (s.loadAndIssue d).cfg = s.cfg := rfl
@[simp] theorem State.loadAndIssue_x (s : State) (d : Word) :
    (s.loadAndIssue d).x = s.x := rfl
@[simp] theorem State.loadAndIssue_pc (s : State) (d : Word) :
    (s.loadAndIssue d).pc = s.pc := rfl
@[simp] theorem State.loadAndIssue_dscr (s : State) (d : Word) :
    (s.loadAndIssue d).dscr = { s.dscr with instrcomplL := false, instrcompl := false } := rfl
@[simp] theorem State.loadAndIssue_dtrrx (s : State) (d : Word) :
    (s.loadAndIssue d).dtrrx = s.dtrrx := rfl
@[simp] theorem State.loadAndIssue_dtrtx (s : State) (d : Word) :
    (s.loadAndIssue d).dtrtx = s.dtrtx := rfl
@[simp] theorem State.loadAndIssue_itr (s : State) (d : Word) :
    (s.loadAndIssue d).itr = d := rfl
@[simp] theorem State.loadAndIssue_dbgen (s : State) (d : Word) :
    (s.loadAndIssue d).dbgen = s.dbgen := rfl
@[simp] theorem State.loadAndIssue_locked (s : State) (d : Word) :
    (s.loadAndIssue d).locked = s.locked := rfl
@[simp] theorem State.loadAndIssue_user (s : State) (d : Word) :
    (s.loadAndIssue d).user = s.user := rfl
@[simp] theorem State.loadAndIssue_irq (s : State) (d : Word) :
    (s.loadAndIssue d).irq = s.irq := rfl
@[simp] theorem State.loadAndIssue_fiq (s : State) (d : Word) :
    (s.loadAndIssue d).fiq = s.fiq := rfl
@[simp] theorem State.loadAndIssue_coreDbgack (s : State) (d : Word) :
    (s.loadAndIssue d).coreDbgack = s.coreDbgack := rfl
@[simp] theorem State.loadAndIssue_conds (s : State) (d : Word) :
    (s.loadAndIssue d).conds = s.conds := rfl
@[simp] theorem State.loadAndIssue_mem (s : State) (d : Word) :
    (s.loadAndIssue d).mem = s.mem := rfl
@[simp] theorem State.loadAndIssue_issue (s : State) (d : Word) :
    (s.loadAndIssue d).issue = .begun d := rfl
@[simp] theorem State.loadAndIssue_handover (s : State) (d : Word) :
    (s.loadAndIssue d).handover = s.handover := rfl
@[simp] theorem State.loadAndIssue_dbgQueue (s : State) (d : Word) :
    (s.loadAndIssue d).dbgQueue = s.dbgQueue := rfl
@[simp] theorem State.loadAndIssue_portHeld (s : State) (d : Word) :
    (s.loadAndIssue d).portHeld = s.portHeld := rfl
@[simp] theorem State.loadAndIssue_reply (s : State) (d : Word) :
    (s.loadAndIssue d).reply = s.reply := rfl
@[simp] theorem State.loadAndIssue_sched (s : State) (d : Word) :
    (s.loadAndIssue d).sched = s.sched := rfl
@[simp] theorem State.loadAndIssue_draws (s : State) (d : Word) :
    (s.loadAndIssue d).draws = s.draws := rfl

/-! ### leaveReset -/

@[simp] theorem State.leaveReset_cfg (s : State) :
    s.leaveReset.cfg = s.cfg := rfl
@[simp] theorem State.leaveReset_x (s : State) :
    s.leaveReset.x = s.x := rfl
@[simp] theorem State.leaveReset_pc (s : State) :
    s.leaveReset.pc = s.pc := rfl
@[simp] theorem State.leaveReset_dscr (s : State) :
    s.leaveReset.dscr = { s.dscr with restarted := true, halted := false } := rfl
@[simp] theorem State.leaveReset_dtrrx (s : State) :
    s.leaveReset.dtrrx = s.dtrrx := rfl
@[simp] theorem State.leaveReset_dtrtx (s : State) :
    s.leaveReset.dtrtx = s.dtrtx := rfl
@[simp] theorem State.leaveReset_itr (s : State) :
    s.leaveReset.itr = s.itr := rfl
@[simp] theorem State.leaveReset_dbgen (s : State) :
    s.leaveReset.dbgen = s.dbgen := rfl
@[simp] theorem State.leaveReset_locked (s : State) :
    s.leaveReset.locked = s.locked := rfl
@[simp] theorem State.leaveReset_user (s : State) :
    s.leaveReset.user = s.user := rfl
@[simp] theorem State.leaveReset_irq (s : State) :
    s.leaveReset.irq = s.irq := rfl
@[simp] theorem State.leaveReset_fiq (s : State) :
    s.leaveReset.fiq = s.fiq := rfl
@[simp] theorem State.leaveReset_coreDbgack (s : State) :
    s.leaveReset.coreDbgack = s.coreDbgack := rfl
@[simp] theorem State.leaveReset_conds (s : State) :
    s.leaveReset.conds = s.conds := rfl
@[simp] theorem State.leaveReset_mem (s : State) :
    s.leaveReset.mem = s.mem := rfl
@[simp] theorem State.leaveReset_issue (s : State) :
    s.leaveReset.issue = s.issue := rfl
@[simp] theorem State.leaveReset_handover (s : State) :
    s.leaveReset.handover = s.handover := rfl
@[simp] theorem State.leaveReset_dbgQueue (s : State) :
    s.leaveReset.dbgQueue = s.dbgQueue := rfl
@[simp] theorem State.leaveReset_portHeld (s : State) :
    s.leaveReset.portHeld = s.portHeld := rfl
@[simp] theorem State.leaveReset_reply (s : State) :
    s.leaveReset.reply = s.reply := rfl
@[simp] theorem State.leaveReset_sched (s : State) :
    s.leaveReset.sched = s.sched := rfl
@[simp] theorem State.leaveReset_draws (s : State) :
    s.leaveReset.draws = s.draws := rfl

end Sys2Proof.Machine
end

