-- ==== Sys2Proof/Laws/Views.lean ====
section
/-! SUPPORT. The laws of the read views and of the write function: what each bit of a view shows, when a write is
accepted, and what it leaves. -/

namespace Sys2Proof.Machine

theorem getLsbD_bitAt (i j : Nat) (b : Bool) (hi : i < 32) : (bitAt i b).getLsbD j = (decide (j = i) && b) := by
  have hone : ∀ k : Nat, (1#32 : BitVec 32).getLsbD k = decide (k = 0) := by
    intro k
    rcases k with _ | k
    · rfl
    · simp [BitVec.getLsbD_one]
  cases b with
  | false => simp [bitAt]
  | true =>
    simp only [bitAt, if_true, BitVec.getLsbD_shiftLeft, hone, Bool.and_true]
    by_cases h : j = i
    · subst h; simp [hi]
    · by_cases hlt : j < i
      · simp [hlt, h]
      · simp only [h, decide_false, show ¬ j - i = 0 by omega, Bool.and_false]

theorem getLsbD_field2 (f : BitVec 2) (j : Nat) :
    (f.zeroExtend 32 <<< 20).getLsbD j = (decide (20 ≤ j) && f.getLsbD (j - 20)) := by
  by_cases h : j < 20
  · simp [h, show ¬ 20 ≤ j by omega]
  · by_cases h2 : j < 22
    · simp [h, show j < 32 by omega, show 20 ≤ j by omega]
    · have : f.getLsbD (j - 20) = false := BitVec.getLsbD_of_ge _ _ (by omega)
      simp [this]

theorem getLsbD_field4 (f : BitVec 4) (j : Nat) :
    (f.zeroExtend 32 <<< 2).getLsbD j = (decide (2 ≤ j) && f.getLsbD (j - 2)) := by
  by_cases h : j < 2
  · simp [h, show ¬ 2 ≤ j by omega]
  · by_cases h2 : j < 6
    · simp [h, show j < 32 by omega, show 2 ≤ j by omega]
    · have : f.getLsbD (j - 2) = false := BitVec.getLsbD_of_ge _ _ (by omega)
      simp [this]

/-- Every bit of a read view (10_state.md R10, R50), as one function of the bit's number. -/
theorem getLsbD_dscrView (s : State) (b27 b26 b24 : Bool) (j : Nat) :
    (dscrView s b27 b26 b24).getLsbD j =
      (decide (j = 30) && s.dscr.rxfull || decide (j = 29) && s.dscr.txfull || decide (j = 27) && b27 ||
        decide (j = 26) && b26 || decide (j = 25) && s.dscr.pipeadv || decide (j = 24) && b24 ||
        decide (20 ≤ j) && s.dscr.dtrAccess.getLsbD (j - 20) || decide (j = 19) && s.dscr.adadiscard ||
        decide (j = 15) && s.monEn || decide (j = 14) && s.haltEn || decide (j = 13) && s.dscr.itrEn ||
        decide (j = 12) && s.dscr.comms || decide (j = 11) && s.dscr.intdis || decide (j = 10) && s.dscr.dbgack ||
        decide (j = 8) && s.dscr.stickyUnd || decide (j = 7) && s.dscr.stickyAabt ||
        decide (j = 6) && s.dscr.stickySabt || decide (2 ≤ j) && s.dscr.moe.getLsbD (j - 2) ||
        decide (j = 1) && s.dscr.restarted || decide (j = 0) && s.dscr.halted) := by
  simp only [dscrView, BitVec.getLsbD_or, getLsbD_bitAt _ _ _ (show (30 : Nat) < 32 by decide),
    getLsbD_bitAt _ _ _ (show (29 : Nat) < 32 by decide), getLsbD_bitAt _ _ _ (show (27 : Nat) < 32 by decide),
    getLsbD_bitAt _ _ _ (show (26 : Nat) < 32 by decide), getLsbD_bitAt _ _ _ (show (25 : Nat) < 32 by decide),
    getLsbD_bitAt _ _ _ (show (24 : Nat) < 32 by decide), getLsbD_bitAt _ _ _ (show (19 : Nat) < 32 by decide),
    getLsbD_bitAt _ _ _ (show (15 : Nat) < 32 by decide), getLsbD_bitAt _ _ _ (show (14 : Nat) < 32 by decide),
    getLsbD_bitAt _ _ _ (show (13 : Nat) < 32 by decide), getLsbD_bitAt _ _ _ (show (12 : Nat) < 32 by decide),
    getLsbD_bitAt _ _ _ (show (11 : Nat) < 32 by decide), getLsbD_bitAt _ _ _ (show (10 : Nat) < 32 by decide),
    getLsbD_bitAt _ _ _ (show (8 : Nat) < 32 by decide), getLsbD_bitAt _ _ _ (show (7 : Nat) < 32 by decide),
    getLsbD_bitAt _ _ _ (show (6 : Nat) < 32 by decide), getLsbD_bitAt _ _ _ (show (1 : Nat) < 32 by decide),
    getLsbD_bitAt _ _ _ (show (0 : Nat) < 32 by decide), getLsbD_field2, getLsbD_field4]

/-- Bits 21:20 of a view are the mode field. -/
theorem dtrAccess_of_dscrView (s : State) (b27 b26 b24 : Bool) :
    (dscrView s b27 b26 b24).extractLsb' 20 2 = s.dscr.dtrAccess := by
  apply BitVec.eq_of_getLsbD_eq
  intro i hi
  have : i = 0 ∨ i = 1 := by omega
  rcases this with rfl | rfl <;> rw [BitVec.getLsbD_extractLsb', getLsbD_dscrView] <;> simp

/-- Bits 5:2 of a view are the method of entry. -/
theorem moe_of_dscrView (s : State) (b27 b26 b24 : Bool) :
    (dscrView s b27 b26 b24).extractLsb' 2 4 = s.dscr.moe := by
  apply BitVec.eq_of_getLsbD_eq
  intro i hi
  have : i = 0 ∨ i = 1 ∨ i = 2 ∨ i = 3 := by omega
  rcases this with rfl | rfl | rfl | rfl <;> rw [BitVec.getLsbD_extractLsb', getLsbD_dscrView] <;> simp

/-- The reserved bits of a view read as zero (R12). -/
theorem dscrView_and_resMask (s : State) (b27 b26 b24 : Bool) : dscrView s b27 b26 b24 &&& resMask = 0#32 := by
  have hb0 : ∀ b : Bool, bitAt 30 b &&& resMask = 0#32 ∧ bitAt 29 b &&& resMask = 0#32 ∧
      bitAt 27 b &&& resMask = 0#32 ∧ bitAt 26 b &&& resMask = 0#32 ∧ bitAt 25 b &&& resMask = 0#32 ∧
      bitAt 24 b &&& resMask = 0#32 ∧ bitAt 19 b &&& resMask = 0#32 ∧ bitAt 15 b &&& resMask = 0#32 ∧
      bitAt 14 b &&& resMask = 0#32 ∧ bitAt 13 b &&& resMask = 0#32 ∧ bitAt 12 b &&& resMask = 0#32 ∧
      bitAt 11 b &&& resMask = 0#32 ∧ bitAt 10 b &&& resMask = 0#32 ∧ bitAt 8 b &&& resMask = 0#32 ∧
      bitAt 7 b &&& resMask = 0#32 ∧ bitAt 6 b &&& resMask = 0#32 ∧ bitAt 1 b &&& resMask = 0#32 ∧
      bitAt 0 b &&& resMask = 0#32 := by decide
  have hf2 : ∀ f : BitVec 2, (f.zeroExtend 32 <<< 20) &&& resMask = 0#32 := by decide
  have hf4 : ∀ f : BitVec 4, (f.zeroExtend 32 <<< 2) &&& resMask = 0#32 := by decide
  have hor : ∀ a b : Word, (a ||| b) &&& resMask = (a &&& resMask) ||| (b &&& resMask) := by
    intro a b
    rw [BitVec.and_comm, BitVec.and_or_distrib_left, BitVec.and_comm resMask a, BitVec.and_comm resMask b]
  simp only [dscrView, hor, hb0, hf2, hf4, BitVec.or_zero]

/-- A CP14 read view is a view of the state. -/
theorem dscrCp14_eq_dscrView (s : State) (d : Word) :
    ∃ b27 b26, dscrCp14 s d = dscrView s b27 b26 (shownInstrcompl s d) ∧
      (s.cfg.cp14LatchView = .live → b27 = s.dscr.rxfull ∧ b26 = s.dscr.txfull) := by
  unfold dscrCp14
  cases h : s.cfg.cp14LatchView
  · exact ⟨_, _, rfl, fun _ => ⟨rfl, rfl⟩⟩
  · exact ⟨_, _, rfl, fun h' => by cases h'⟩

/-- What a write can do (R52): it is accepted exactly when none of the three tests refuses it. -/
theorem dscrWrite_ok (o : Word) (f g : DscrState) (d : Word) :
    dscrWrite o f d = .ok g ↔ WriteAccepted f d ∧ g = dscrStored o f d := by
  unfold dscrWrite
  constructor
  · intro h
    split at h
    · cases h
    · split at h
      · cases h
      · split at h
        · cases h
        · rename_i h1 h2 h3
          refine ⟨⟨by simpa using h1, h2, ?_⟩, by simpa using h.symm⟩
          intro hd
          simpa [hd] using h3
  · rintro ⟨⟨h1, h2, h3⟩, rfl⟩
    rw [if_neg (by simpa using h1), if_neg h2, if_neg]
    intro hb
    rw [Bool.and_eq_true] at hb
    simp [h3 hb.1] at hb

/-- The three reasons a write is refused for (R52). -/
theorem dscrWrite_error (o : Word) (f : DscrState) (d : Word) (e : Refusal) (h : dscrWrite o f d = .error e) :
    ¬ WriteAccepted f d ∧
      (e = .sbzpViolated ∨ e = .reservedDtrMode ∨ e = .itrEnOutsideDebugState) := by
  refine ⟨fun ha => ?_, ?_⟩
  · rw [(dscrWrite_ok o f _ d).2 ⟨ha, rfl⟩] at h
    cases h
  · unfold dscrWrite at h
    split at h
    · cases h; exact .inl rfl
    · split at h
      · cases h; exact .inr (.inl rfl)
      · split at h
        · cases h; exact .inr (.inr rfl)
        · cases h

@[simp] theorem openBit_zero (d : Word) (i : Nat) (old : Bool) : openBit 0#32 d i old = old := by
  simp [openBit]

@[simp] theorem openMoe_zero (d : Word) (old : BitVec 4) : openMoe 0#32 d old = old := by
  have h : (0#32 : Word).extractLsb' 2 4 = 0#4 := by decide
  have h1 : ∀ v : BitVec 4, v &&& ~~~0#4 = v := by decide
  have h2 : ∀ v : BitVec 4, v &&& 0#4 = 0#4 := by decide
  have h3 : ∀ v : BitVec 4, v ||| 0#4 = v := by decide
  simp only [openMoe, h, h1, h2, h3]

end Sys2Proof.Machine
end

