-- ==== Sys2Proof/Laws/Ops.lean ====
section
/-! SUPPORT. One lemma per shared operation that says everything it can do. -/

namespace Sys2Proof.Machine

/-! ### The template of the two instructions -/

/-- Everything the template of 40_cp14_access.md R80 can do when it answers a next state. -/
theorem runCp14_next {k : AccessKind} {c : Cond} {r : Rd} {f : Fin 15 → State → Except Refusal State} {s t : State}
    (h : runCp14 k c r f s = .next t) :
    c ≠ 0b1111#4 ∧
      ((conditionPassed s c = false ∧ t = s.complete) ∨
        (conditionPassed s c = true ∧ ∃ i, r = .gpr i ∧ accessPermitted s k = true ∧
          ∃ u, f i s = .ok u ∧ t = u.complete) ∨
        (conditionPassed s c = true ∧ ∃ i, r = .gpr i ∧ accessPermitted s k = false ∧
          t = s.takeException .undefinedInstruction)) := by
  unfold runCp14 at h
  split at h
  · cases h
  · rename_i hc
    refine ⟨hc, ?_⟩
    split at h
    · rename_i hp
      cases r with
      | r15 => cases h
      | gpr i =>
        simp only at h
        split at h
        · rename_i ha
          cases hf : f i s with
          | ok u =>
            rw [hf] at h
            exact .inr (.inl ⟨hp, i, rfl, ha, u, hf, by simpa using h.symm⟩)
          | error e =>
            rw [hf] at h
            cases h
        · rename_i ha
          exact .inr (.inr ⟨hp, i, rfl, by simpa using ha, by simpa using h.symm⟩)
    · rename_i hp
      exact .inl ⟨by simpa using hp, by simpa using h.symm⟩

theorem runCp14_skip {k : AccessKind} {c : Cond} {r : Rd} {f : Fin 15 → State → Except Refusal State} {s : State}
    (hc : c ≠ 0b1111#4) (hp : conditionPassed s c = false) : runCp14 k c r f s = .next s.complete := by
  simp [runCp14, hc, hp]

theorem runCp14_trap {k : AccessKind} {c : Cond} {i : Fin 15} {f : Fin 15 → State → Except Refusal State} {s : State}
    (hc : c ≠ 0b1111#4) (hp : conditionPassed s c = true) (ha : accessPermitted s k = false) :
    runCp14 k c (.gpr i) f s = .next (s.takeException .undefinedInstruction) := by
  simp [runCp14, hc, hp, ha]

theorem runCp14_done {k : AccessKind} {c : Cond} {i : Fin 15} {f : Fin 15 → State → Except Refusal State}
    {s u : State} (hc : c ≠ 0b1111#4) (hp : conditionPassed s c = true) (ha : accessPermitted s k = true)
    (hf : f i s = .ok u) : runCp14 k c (.gpr i) f s = .next u.complete := by
  simp [runCp14, hc, hp, ha, hf]

theorem runCp14_refused {k : AccessKind} {c : Cond} {i : Fin 15} {f : Fin 15 → State → Except Refusal State}
    {s : State} {e : Refusal} (hc : c ≠ 0b1111#4) (hp : conditionPassed s c = true)
    (ha : accessPermitted s k = true) (hf : f i s = .error e) : runCp14 k c (.gpr i) f s = .refused e := by
  simp [runCp14, hc, hp, ha, hf]

/-- When the access check permits (60_exceptions.md R171). -/
theorem accessPermitted_iff (s : State) (k : AccessKind) :
    accessPermitted s k = true ↔
      s.user = false ∨ (s.dscr.comms = false ∧ (k = .write → s.cfg.userDscrWrite = .permitted)) := by
  unfold accessPermitted
  cases s.user <;> cases s.dscr.comms <;> cases k <;> cases s.cfg.userDscrWrite <;> simp

@[simp] theorem conditionPassed_always (s : State) : conditionPassed s 0b1110#4 = true := rfl

/-- What the MCR's transfer can do. -/
theorem mcrTransfer_ok (i : Fin 15) (s u : State) :
    mcrTransfer i s = .ok u ↔
      WriteAccepted s.dscr (s.readReg i) ∧
        u = s.withDscr (dscrStored (openCp14 s.cfg) s.dscr (s.readReg i)) := by
  unfold mcrTransfer
  constructor
  · intro h
    cases hw : dscrWrite (openCp14 s.cfg) s.dscr (s.readReg i) with
    | ok g =>
      rw [hw] at h
      obtain ⟨ha, rfl⟩ := (dscrWrite_ok _ _ _ _).1 hw
      exact ⟨ha, by simpa using h.symm⟩
    | error e =>
      rw [hw] at h
      cases h
  · rintro ⟨ha, rfl⟩
    rw [(dscrWrite_ok _ _ _ _).2 ⟨ha, rfl⟩]

/-! ### Debug events, exit, resets -/

/-- Everything a debug event can do (42_hardware_events.md R146). -/
theorem debugEvent_ok {k : DebugKind} {s t : State} (h : debugEvent k s = .ok t) :
    s.dscr.halted = false ∧ ∃ code, moeCode k = some code ∧
      ((s.debugMode = .halting ∧ t = s.enterDebugState code) ∨
        (s.debugMode = .monitor ∧ ∃ a, debugExceptionKind k = some a ∧ t = s.debugException code a)) := by
  unfold debugEvent at h
  split at h
  · cases h
  · rename_i hh
    refine ⟨by simpa using hh, ?_⟩
    cases hk : moeCode k with
    | none =>
      rw [hk] at h
      cases h
    | some code =>
      rw [hk] at h
      refine ⟨code, rfl, ?_⟩
      cases hm : s.debugMode with
      | halting =>
        rw [hm] at h
        exact .inl ⟨rfl, by simpa using h.symm⟩
      | monitor =>
        rw [hm] at h
        cases ha : debugExceptionKind k with
        | none => simp [ha] at h
        | some a =>
          simp only [ha] at h
          exact .inr ⟨rfl, a, rfl, by simpa using h.symm⟩
      | noDebugMode =>
        rw [hm] at h
        cases h

/-- A debug exception is taken in normal state, so it changes `moe` alone (R147). -/
theorem debugException_dscr (s : State) (code : BitVec 4) (a : TrapKind) (ha : a ≠ .undefinedInstruction) :
    (s.debugException code a).dscr = { s.dscr with moe := code } := by
  simp [State.debugException, ha]

theorem debugExceptionKind_ne {k : DebugKind} {a : TrapKind} (h : debugExceptionKind k = some a) :
    a ≠ .undefinedInstruction := by
  cases k <;> simp [debugExceptionKind] at h <;> subst h <;> decide

theorem beginExit_ok {s t : State} (h : beginExit s = .ok t) :
    s.dscr.halted = true ∧ t = { s with dscr := { s.dscr with restarted := false } } := by
  unfold beginExit at h
  split at h
  · exact ⟨‹_›, by simpa using h.symm⟩
  · cases h

theorem completeExit_ok {s t : State} (h : completeExit s = .ok t) :
    s.dscr.halted = true ∧ s.dscr.restarted = false ∧ s.dscr.itrEn = false ∧
      t = { s with dscr := { s.dscr with halted := false, restarted := true, adadiscard := false } } := by
  unfold completeExit at h
  split at h
  · rename_i hh
    simp only [Bool.and_eq_true, Bool.not_eq_true'] at hh
    split at h
    · cases h
    · rename_i hi
      exact ⟨hh.1, hh.2, by simpa using hi, by simpa using h.symm⟩
  · cases h

/-- Everything a processor reset can do (70_reset_and_hazards.md R192). -/
theorem processorReset_ok {s t : State} (h : processorReset s = .ok t) :
    s.underReset.dscr.itrEn = false ∧ t = s.underReset.leaveReset := by
  unfold processorReset at h
  split at h
  · cases h
  · rename_i hi
    exact ⟨by simpa using hi, by simpa using h.symm⟩

/-- DBGDSCR after the assignments of a processor reset but those of bits 1:0. -/
theorem underReset_dscr (s : State) :
    s.underReset.dscr =
      if s.cfg.procResetResetsControl then s.dscr.debugReset (Config.freeWord (s.draws + 16)) else s.dscr := by
  unfold State.underReset
  split <;> simp

/-! ### The processor's DTR transfers and the end of an issued instruction -/

theorem procReadDtrrx_ok {rd : Fin 15} {s t : State} (h : procReadDtrrx rd s = .ok t) :
    dtrTransferEnabled s = true ∧
      ((accessPermitted s .read = false ∧ t = s.takeException .undefinedInstruction) ∨
        (accessPermitted s .read = true ∧
          t = (((s.writeReg rd (if s.dscr.rxfull then s.dtrrx else s.draw)).withDscr
            { s.dscr with rxfull := false }).drawn 1).transferDone)) := by
  unfold procReadDtrrx at h
  split at h
  · cases h
  · rename_i he
    refine ⟨by simpa using he, ?_⟩
    split at h
    · exact .inl ⟨by simpa using ‹(!_) = true›, by simpa using h.symm⟩
    · rename_i ha
      exact .inr ⟨by simpa using ha, by simpa using h.symm⟩

theorem procWriteDtrtx_ok {v : Word} {s t : State} (h : procWriteDtrtx v s = .ok t) :
    dtrTransferEnabled s = true ∧
      ((accessPermitted s .write = false ∧ t = s.takeException .undefinedInstruction) ∨
        (accessPermitted s .write = true ∧
          t = ({ s with dtrtx := v, dscr := { s.dscr with txfull := true } } : State).transferDone)) := by
  unfold procWriteDtrtx at h
  split at h
  · cases h
  · rename_i he
    refine ⟨by simpa using he, ?_⟩
    split at h
    · exact .inl ⟨by simpa using ‹(!_) = true›, by simpa using h.symm⟩
    · rename_i ha
      exact .inr ⟨by simpa using ha, by simpa using h.symm⟩

/-- Everything the completion of an issued instruction can do (R151). -/
theorem issueComplete_ok {s t : State} (h : issueComplete s = .ok t) :
    s.dscr.halted = true ∧ s.dscr.instrcompl = false ∧
      ((s.issue = .excepted ∧ t = { s with dscr := { s.dscr with instrcompl := true }, issue := .idle }) ∨
        ((s.issue = .executed ∨ s.issue = .idle) ∧
          t = { s with dscr := { s.dscr with instrcompl := true, pipeadv := true }, issue := .idle })) := by
  unfold issueComplete at h
  split at h
  · rename_i hh
    simp only [Bool.and_eq_true, Bool.not_eq_true'] at hh
    refine ⟨hh.1, hh.2, ?_⟩
    cases hi : s.issue with
    | begun w =>
      rw [hi] at h
      cases hd : decodeWord w <;> simp [hd] at h
    | excepted =>
      rw [hi] at h
      exact .inl ⟨rfl, by simpa using h.symm⟩
    | executed =>
      rw [hi] at h
      exact .inr ⟨.inl rfl, by simpa [State.retire] using h.symm⟩
    | idle =>
      rw [hi] at h
      exact .inr ⟨.inr rfl, by simpa [State.retire] using h.symm⟩
  · cases h

end Sys2Proof.Machine
end

