-- ==== Sys2Proof/Laws/PerInstr.lean ====
section
/-! SUPPORT. Families of statements over all instructions, one lemma per constructor. -/

namespace Sys2Proof.Laws

/-- An instruction's word matches its own row of the opcode table and carries its condition. -/
def EncodesItsRow.Statement (i : Instr) : Prop :=
  condField (encode i) = i.cond ∧
    encode i &&& rowMask =
      (match i with
       | .mrcDbgdscr _ _ => mrcMatch
       | .mcrDbgdscr _ _ => mcrMatch)

theorem EncodesItsRow.mrcDbgdscr (c : Cond) (r : Rd) : EncodesItsRow.Statement (.mrcDbgdscr c r) :=
  ⟨condField_encodeRow _ _ _ (by decide), encodeRow_and_rowMask _ _ _ (by decide)⟩

theorem EncodesItsRow.mcrDbgdscr (c : Cond) (r : Rd) : EncodesItsRow.Statement (.mcrDbgdscr c r) :=
  ⟨condField_encodeRow _ _ _ (by decide), encodeRow_and_rowMask _ _ _ (by decide)⟩

end Sys2Proof.Laws
end

