-- ==== Sys2Proof/Laws/Step.lean ====
section
/-! SUPPORT. What one step can do: an inversion lemma for each turn, and `DscrStep`, the list of everything a step
can make of DBGDSCR, from which each invariant is a case analysis. -/

namespace Sys2Proof.Machine

/-- Everything one access of the debugger can do when it completes (41_dtr_access_mode.md). -/
inductive AccessDone (s : State) : ApbAccess → State → Prop
  | read (p31 : Bool) : AccessDone s (.readDscr p31) ((s.latchForRead p31).drawn 1)
  | written (d : Word) (p31 : Bool) (h : WriteAccepted s.dscr d) :
      AccessDone s (.writeDscr d p31) (s.withDscr (dscrStored (openApb s.cfg) s.dscr d))
  | ignoredDtrrx (d : Word) (p31 : Bool) : AccessDone s (.writeDtrrx d p31) s
  | filled (d : Word) (p31 : Bool) : AccessDone s (.writeDtrrx d p31) (s.fillDtrrx d)
  | filledFast (d : Word) (p31 : Bool) (h : s.dscr.halted = true) :
      AccessDone s (.writeDtrrx d p31) (s.fillDtrrx d).issueItr
  | ignoredDtrtx (p31 : Bool) : AccessDone s (.readDtrtx p31) (s.drawn 1)
  | emptied (p31 : Bool) : AccessDone s (.readDtrtx p31) s.emptyDtrtx
  | emptiedFast (p31 : Bool) (h : s.dscr.halted = true) : AccessDone s (.readDtrtx p31) s.emptyDtrtx.issueItr
  | ignoredItr (d : Word) (p31 : Bool) : AccessDone s (.writeItr d p31) s
  | issued (d : Word) (p31 : Bool) (h : s.dscr.halted = true) : AccessDone s (.writeItr d p31) (s.loadAndIssue d)
  | loaded (d : Word) (p31 : Bool) : AccessDone s (.writeItr d p31) { s with itr := d }
  | cleared (d : Word) (p31 : Bool) : AccessDone s (.writeDrcr d p31) (s.withDscr (s.dscr.drcrClear d))
  | clearedAndEvent (d : Word) (p31 : Bool) (t : State) (hb : d.getLsbD 0 = true)
      (h : debugEvent .haltRequest (s.withDscr (s.dscr.drcrClear d)) = .ok t) : AccessDone s (.writeDrcr d p31) t

/-- A completed or ignored access is one of `AccessDone`. -/
theorem apbAccess_completes {a : ApbAccess} {s t : State} {r : ApbReply}
    (h : apbAccess a s = .done t r ∨ apbAccess a s = .ignored t r) : AccessDone s a t := by
  cases a with
  | readDscr p31 =>
    simp only [apbAccess, apbReadDscr, ApbOutcome.done.injEq, reduceCtorEq, or_false] at h
    rw [← h.1]
    exact .read p31
  | writeDscr d p31 =>
    simp only [apbAccess, unlessLocked, apbWriteDscr] at h
    split at h
    · simp at h
    · cases hw : dscrWrite (openApb s.cfg) s.dscr d with
      | ok g =>
        obtain ⟨ha, rfl⟩ := (dscrWrite_ok _ _ _ _).1 hw
        simp only [hw, ApbOutcome.done.injEq, reduceCtorEq, or_false] at h
        rw [← h.1]
        exact .written d p31 ha
      | error e => simp [hw] at h
  | writeDtrrx d p31 =>
    simp only [apbAccess, unlessLocked, apbWriteDtrrx] at h
    split at h
    · simp at h
    · cases hm : dtrModeOf s.dscr.dtrAccess <;> simp only [hm] at h
      · split at h
        · simp only [reduceCtorEq, ApbOutcome.ignored.injEq, false_or] at h
          rw [← h.1]; exact .ignoredDtrrx d p31
        · simp only [reduceCtorEq, ApbOutcome.done.injEq, or_false] at h
          rw [← h.1]; exact .filled d p31
      · split at h
        · simp at h
        · simp only [reduceCtorEq, ApbOutcome.done.injEq, or_false] at h
          rw [← h.1]; exact .filled d p31
      · split at h
        · simp at h
        · split at h
          · simp at h
          · rename_i hh
            split at h
            · simp at h
            · simp only [reduceCtorEq, ApbOutcome.done.injEq, or_false] at h
              rw [← h.1]; exact .filledFast d p31 (by cases hx : s.dscr.halted <;> simp_all)
      · simp at h
  | readDtrtx p31 =>
    simp only [apbAccess, unlessLocked, apbReadDtrtx] at h
    split at h
    · simp at h
    · cases hm : dtrModeOf s.dscr.dtrAccess <;> simp only [hm] at h
      · split at h
        · simp only [reduceCtorEq, ApbOutcome.done.injEq, or_false] at h
          rw [← h.1]; exact .emptied p31
        · simp only [reduceCtorEq, ApbOutcome.ignored.injEq, false_or] at h
          rw [← h.1]; exact .ignoredDtrtx p31
      · split at h
        · simp only [reduceCtorEq, ApbOutcome.done.injEq, or_false] at h
          rw [← h.1]; exact .emptied p31
        · simp at h
      · split at h
        · simp at h
        · split at h
          · simp at h
          · rename_i hh
            split at h
            · simp at h
            · simp only [reduceCtorEq, ApbOutcome.done.injEq, or_false] at h
              rw [← h.1]; exact .emptiedFast p31 (by cases hx : s.dscr.halted <;> simp_all)
      · simp at h
  | writeItr d p31 =>
    simp only [apbAccess, unlessLocked, apbWriteItr] at h
    split at h
    · simp at h
    · cases hm : dtrModeOf s.dscr.dtrAccess <;> simp only [hm] at h
      · split at h
        · simp at h
        · rename_i hh
          split at h
          · simp only [reduceCtorEq, ApbOutcome.ignored.injEq, false_or] at h
            rw [← h.1]; exact .ignoredItr d p31
          · split at h
            · simp at h
            · simp only [reduceCtorEq, ApbOutcome.done.injEq, or_false] at h
              rw [← h.1]; exact .issued d p31 (by simpa using hh)
      · split at h
        · simp at h
        · rename_i hh
          split at h
          · simp at h
          · split at h
            · simp at h
            · simp only [reduceCtorEq, ApbOutcome.done.injEq, or_false] at h
              rw [← h.1]; exact .issued d p31 (by simpa using hh)
      · split at h
        · simp at h
        · split at h
          · simp at h
          · simp only [reduceCtorEq, ApbOutcome.done.injEq, or_false] at h
            rw [← h.1]; exact .loaded d p31
      · simp at h
  | writeDrcr d p31 =>
    simp only [apbAccess, unlessLocked, apbWriteDrcr] at h
    split at h
    · simp at h
    · split at h
      · rename_i hb
        cases he : debugEvent .haltRequest (s.withDscr (s.dscr.drcrClear d)) with
        | ok u =>
          simp only [he, reduceCtorEq, ApbOutcome.done.injEq, or_false] at h
          rw [← h.1]; exact .clearedAndEvent d p31 u hb he
        | error e => simp [he] at h
      · simp only [reduceCtorEq, ApbOutcome.done.injEq, or_false] at h
        rw [← h.1]; exact .cleared d p31

/-- Only the DTR and DBGITR accesses can be held (R119). -/
theorem mayHold_of_hold {a : ApbAccess} {s : State} (h : apbAccess a s = .hold) : a.mayHold = true := by
  cases a with
  | readDscr p31 => simp [apbAccess, apbReadDscr] at h
  | writeDscr d p31 =>
    simp only [apbAccess, unlessLocked, apbWriteDscr] at h
    split at h
    · cases h
    · cases hw : dscrWrite (openApb s.cfg) s.dscr d <;> simp [hw] at h
  | writeDrcr d p31 =>
    simp only [apbAccess, unlessLocked, apbWriteDrcr] at h
    split at h
    · cases h
    · split at h
      · cases he : debugEvent .haltRequest (s.withDscr (s.dscr.drcrClear d)) <;> simp [he] at h
      · cases h
  | writeDtrrx d p31 => rfl
  | readDtrtx p31 => rfl
  | writeItr d p31 => rfl

/-- When an access is held: in Stall and Fast mode, past the lock, while the flag it waits for is not as it needs it
(41_dtr_access_mode.md R108 to R113). -/
def State.Holds (s : State) : ApbAccess → Prop
  | .writeDtrrx _ p31 => s.lockedOut p31 = false ∧
      (dtrModeOf s.dscr.dtrAccess = .stall ∨ dtrModeOf s.dscr.dtrAccess = .fast) ∧ s.dscr.rxfull = true
  | .readDtrtx p31 => s.lockedOut p31 = false ∧
      (dtrModeOf s.dscr.dtrAccess = .stall ∨ dtrModeOf s.dscr.dtrAccess = .fast) ∧ s.dscr.txfull = false
  | .writeItr _ p31 => s.lockedOut p31 = false ∧
      (dtrModeOf s.dscr.dtrAccess = .stall ∨ dtrModeOf s.dscr.dtrAccess = .fast) ∧ s.dscr.halted = true ∧
      s.dscr.instrcompl = false
  | _ => False

/-- An access is held exactly when `State.Holds` says so. -/
theorem apbAccess_hold_iff (a : ApbAccess) (s : State) : apbAccess a s = .hold ↔ s.Holds a := by
  cases a with
  | writeDtrrx d p31 =>
    simp only [apbAccess, unlessLocked, apbWriteDtrrx, State.Holds]
    cases s.lockedOut p31 <;> cases dtrModeOf s.dscr.dtrAccess <;> cases s.dscr.rxfull <;>
      cases s.dscr.rxfullL <;> cases s.dscr.halted <;> cases s.dscr.itrEn <;> cases s.dscr.instrcompl <;> simp
  | readDtrtx p31 =>
    simp only [apbAccess, unlessLocked, apbReadDtrtx, State.Holds]
    cases s.lockedOut p31 <;> cases dtrModeOf s.dscr.dtrAccess <;> cases s.dscr.txfull <;>
      cases s.dscr.txfullL <;> cases s.dscr.halted <;> cases s.dscr.itrEn <;> cases s.dscr.instrcompl <;> simp
  | writeItr d p31 =>
    simp only [apbAccess, unlessLocked, apbWriteItr, State.Holds]
    cases s.lockedOut p31 <;> cases dtrModeOf s.dscr.dtrAccess <;> cases s.dscr.halted <;>
      cases s.dscr.instrcomplL <;> cases s.dscr.itrEn <;> cases s.dscr.instrcompl <;> simp
  | _ => exact ⟨fun h => absurd (mayHold_of_hold h) (by simp [ApbAccess.mayHold]), False.elim⟩

/-- Whether an access is held does not depend on the schedule. -/
theorem apbAccess_hold_sched (a : ApbAccess) (s : State) (ts : List Turn) (h : apbAccess a s = .hold) :
    apbAccess a { s with sched := ts } = .hold := by
  rw [apbAccess_hold_iff] at h ⊢
  cases a <;> exact h

/-- Everything the debugger's turn can do. -/
theorem dbgTurn_next {s t : State} (h : dbgTurn s = .next t) :
    (s.dbgQueue = [] ∧ t = s) ∨
      (∃ a q, s.dbgQueue = a :: q ∧
        ((apbAccess a s = .hold ∧ t = { s with portHeld := true }) ∨
          ∃ u r, AccessDone s a u ∧ t = { u with dbgQueue := q, portHeld := false, reply := some r })) := by
  unfold dbgTurn at h
  cases hq : s.dbgQueue with
  | nil =>
    simp only [hq, Host.Outcome.next.injEq] at h
    exact .inl ⟨rfl, h.symm⟩
  | cons a q =>
    refine .inr ⟨a, q, rfl, ?_⟩
    cases ha : apbAccess a s with
    | done u r =>
      simp only [hq, ha, Host.Outcome.next.injEq] at h
      exact .inr ⟨u, r, apbAccess_completes (.inl ha), h.symm⟩
    | ignored u r =>
      simp only [hq, ha, Host.Outcome.next.injEq] at h
      exact .inr ⟨u, r, apbAccess_completes (.inr ha), h.symm⟩
    | hold =>
      simp only [hq, ha, Host.Outcome.next.injEq] at h
      exact .inl ⟨rfl, h.symm⟩
    | refuse e => simp [hq, ha] at h

/-- Everything the processor's turn can do. -/
theorem procTurn_next {s t : State} (h : procTurn s = .next t) : t = s ∨ ∃ i, exec i s = .next t := by
  unfold procTurn at h
  cases hn : s.nextInstr with
  | nothing =>
    simp only [hn, Host.Outcome.next.injEq] at h
    exact .inl h.symm
  | fault f => simp [hn] at h
  | refused r => simp [hn] at h
  | bytes bs =>
    simp only [hn] at h
    cases hd : decode s.cfg.instrEndian bs with
    | ok p => exact .inr ⟨p.1, by simpa [hd] using h⟩
    | error e => simp [hd] at h

/-- Everything a step can do. -/
theorem step_next {s t : State} (h : step s = .next t) :
    (s.sched = [] ∧ procTurn s = .next t) ∨
      ∃ rest, (s.sched = .proc :: rest ∧ procTurn { s with sched := rest } = .next t) ∨
        (s.sched = .dbg :: rest ∧ dbgTurn { s with sched := rest } = .next t) ∨
        ∃ e, s.sched = .event e :: rest ∧ eventStep e { s with sched := rest } = .ok t := by
  unfold step scheduledTurn at h
  cases hs : s.sched with
  | nil => exact .inl ⟨rfl, by simpa [hs] using h⟩
  | cons u rest =>
    refine .inr ⟨rest, ?_⟩
    cases u with
    | proc => exact .inl ⟨rfl, by simpa [hs] using h⟩
    | dbg => exact .inr (.inl ⟨rfl, by simpa [hs] using h⟩)
    | event e =>
      refine .inr (.inr ⟨e, rfl, ?_⟩)
      simp only [hs, eventTurn] at h
      cases he : eventStep e { s with sched := rest } with
      | ok u => simpa [he] using h
      | error r => simp [he] at h

/-- A step that is the debugger's is what its access comes to. -/
theorem step_of_accesses {s : State} {a : ApbAccess} {q : List ApbAccess} {rest : List Turn}
    (h : s.Accesses a q rest) :
    step s =
      match apbAccess a { s with sched := rest } with
      | .done t r => .next { t with dbgQueue := q, portHeld := false, reply := some r }
      | .ignored t r => .next { t with dbgQueue := q, portHeld := false, reply := some r }
      | .hold => .next { s with portHeld := true, sched := rest }
      | .refuse r => .refused r := by
  obtain ⟨b, c⟩ := h
  rw [step, scheduledTurn, b]
  simp only [dbgTurn]
  rw [c]
  all_goals rfl

/-- A step that is an event's is what the event comes to. -/
theorem step_of_next_event {s : State} {e : Event} {rest : List Turn} (h : s.Next (.event e) rest) :
    step s = eventTurn e { s with sched := rest } := by
  have hs : s.sched = .event e :: rest := h
  rw [step, scheduledTurn, hs]

/-- A step that is the processor's is its turn. -/
theorem step_of_procNext {s : State} {rest : List Turn} (h : s.ProcNext rest) :
    step s = procTurn { s with sched := rest } := by
  rcases h with ⟨hs, rfl⟩ | hs
  · have he : ({ s with sched := [] } : State) = s := by rw [← hs]
    rw [he, step, scheduledTurn, hs]
  · rw [step, scheduledTurn, hs]

/-- A run that answers a next state starts with a step that does. -/
theorem run_succ_next (n : Nat) (s t : State) :
    Sys2Proof.core.run (n + 1) s = .next t ↔ ∃ u, step s = .next u ∧ Sys2Proof.core.run n u = .next t := by
  cases h : step s with
  | next u =>
    have hc : Sys2Proof.core.step s = .next u := h
    simp only [Host.Core.run, hc]
    exact ⟨fun hr => ⟨u, rfl, hr⟩, fun ⟨v, hv, hr⟩ => by cases hv; exact hr⟩
  | fault f =>
    have hc : Sys2Proof.core.step s = .fault f := h
    simp only [Host.Core.run, hc]
    exact ⟨fun hr => (by cases hr), fun ⟨v, hv, _⟩ => by cases hv⟩
  | refused r =>
    have hc : Sys2Proof.core.step s = .refused r := h
    simp only [Host.Core.run, hc]
    exact ⟨fun hr => (by cases hr), fun ⟨v, hv, _⟩ => by cases hv⟩

theorem run_zero_next (s t : State) : Sys2Proof.core.run 0 s = .next t ↔ s = t := by
  constructor
  · intro h; cases h; rfl
  · rintro rfl; rfl

/-- Everything one step can make of DBGDSCR, with what it needs of the state before, but for the debugger's write of
DBGDRCR and the resets. -/
inductive DscrStep (s : State) : DscrState → Prop
  | same : DscrStep s s.dscr
  | retired : DscrStep s { s.dscr with pipeadv := true }
  | mcr (d : Word) (h : WriteAccepted s.dscr d) :
      DscrStep s { dscrStored (openCp14 s.cfg) s.dscr d with pipeadv := true }
  | trapped : DscrStep s { s.dscr with stickyUnd := s.dscr.stickyUnd || s.dscr.halted }
  | latched : DscrStep s s.dscr.latch
  | written (d : Word) (h : WriteAccepted s.dscr d) : DscrStep s (dscrStored (openApb s.cfg) s.dscr d)
  | filled : DscrStep s { s.dscr with rxfull := true, rxfullL := true }
  | filledFast (h : s.dscr.halted = true) :
      DscrStep s { s.dscr with rxfull := true, rxfullL := true, instrcompl := false }
  | emptied : DscrStep s { s.dscr with txfull := false, txfullL := false }
  | emptiedFast (h : s.dscr.halted = true) :
      DscrStep s { s.dscr with txfull := false, txfullL := false, instrcompl := false }
  | issued (h : s.dscr.halted = true) : DscrStep s { s.dscr with instrcomplL := false, instrcompl := false }
  | readDtrrx : DscrStep s { s.dscr with rxfull := false }
  | wroteDtrtx : DscrStep s { s.dscr with txfull := true }
  | entered (k : DebugKind) (code : BitVec 4) (hk : moeCode k = some code) (hh : s.dscr.halted = false)
      (hm : s.debugMode = .halting) :
      DscrStep s { s.dscr with
        halted := true, moe := code, instrcomplL := true, instrcompl := true, adadiscard := true }
  | debugException (k : DebugKind) (code : BitVec 4) (hk : moeCode k = some code) (hh : s.dscr.halted = false)
      (hm : s.debugMode = .monitor) : DscrStep s { s.dscr with moe := code }
  | exiting (hh : s.dscr.halted = true) : DscrStep s { s.dscr with restarted := false }
  | exited (hh : s.dscr.halted = true) (hr : s.dscr.restarted = false) (hi : s.dscr.itrEn = false) :
      DscrStep s { s.dscr with halted := false, restarted := true, adadiscard := false }
  | undef (hh : s.dscr.halted = true) : DscrStep s { s.dscr with stickyUnd := true }
  | syncAbort (hh : s.dscr.halted = true) : DscrStep s { s.dscr with stickySabt := true }
  | asyncAbort (hh : s.dscr.halted = true) : DscrStep s { s.dscr with stickyAabt := true }
  | issueExcepted (hh : s.dscr.halted = true) : DscrStep s { s.dscr with instrcompl := true }
  | issueRetired (hh : s.dscr.halted = true) : DscrStep s { s.dscr with instrcompl := true, pipeadv := true }

/-- What the debugger's write of `d` to DBGDRCR can make of DBGDSCR (41_dtr_access_mode.md R116 to R118). -/
inductive DrcrStep (s : State) (d : Word) : DscrState → Prop
  | cleared : DrcrStep s d (s.dscr.drcrClear d)
  | clearedAndHalted (hb : d.getLsbD 0 = true) (hh : s.dscr.halted = false) (hm : s.debugMode = .halting) :
      DrcrStep s d { s.dscr.drcrClear d with
        halted := true, moe := 0b0000#4, instrcomplL := true, instrcompl := true, adadiscard := true }

/-- What a reset can make of DBGDSCR (70_reset_and_hazards.md R191, R192). -/
inductive ResetStep (f : DscrState) : Event → DscrState → Prop
  | debugReset (d : Word) : ResetStep f .debugReset (f.debugReset d)
  | processorReset (hi : f.itrEn = false) : ResetStep f .processorReset { f with restarted := true, halted := false }
  | bothResets (d : Word) : ResetStep f .processorReset { f.debugReset d with restarted := true, halted := false }

theorem exec_mrcDbgdscr (c : Cond) (r : Rd) (s : State) :
    exec (.mrcDbgdscr c r) s = runCp14 .read c r mrcTransfer s := rfl

theorem exec_mcrDbgdscr (c : Cond) (r : Rd) (s : State) :
    exec (.mcrDbgdscr c r) s = runCp14 .write c r mcrTransfer s := rfl

/-- What an instruction can make of DBGDSCR. -/
theorem exec_dscr {i : Instr} {s t : State} (h : exec i s = .next t) : DscrStep s t.dscr := by
  cases i with
  | mrcDbgdscr c r =>
    rw [exec_mrcDbgdscr] at h
    obtain ⟨-, ⟨-, rfl⟩ | ⟨-, i, rfl, -, u, hu, rfl⟩ | ⟨-, i, rfl, -, rfl⟩⟩ := runCp14_next h
    · exact .retired
    · simp only [mrcTransfer, Except.ok.injEq] at hu
      subst hu
      exact .retired
    · simpa using DscrStep.trapped
  | mcrDbgdscr c r =>
    rw [exec_mcrDbgdscr] at h
    obtain ⟨-, ⟨-, rfl⟩ | ⟨-, i, rfl, -, u, hu, rfl⟩ | ⟨-, i, rfl, -, rfl⟩⟩ := runCp14_next h
    · exact .retired
    · obtain ⟨ha, rfl⟩ := (mcrTransfer_ok _ _ _).1 hu
      exact .mcr _ ha
    · simpa using DscrStep.trapped

/-- What a completed access can make of DBGDSCR. -/
theorem accessDone_dscr {a : ApbAccess} {s t : State} (h : AccessDone s a t) :
    DscrStep s t.dscr ∨ ∃ d p31, a = .writeDrcr d p31 ∧ DrcrStep s d t.dscr := by
  cases h with
  | read p31 =>
    simp only [State.drawn_dscr, State.latchForRead]
    split
    · exact .inl .latched
    · exact .inl .same
  | written d p31 h => exact .inl (.written d h)
  | ignoredDtrrx d p31 => exact .inl .same
  | filled d p31 => exact .inl .filled
  | filledFast d p31 h => exact .inl (.filledFast h)
  | ignoredDtrtx p31 => exact .inl .same
  | emptied p31 => exact .inl .emptied
  | emptiedFast p31 h => exact .inl (.emptiedFast h)
  | ignoredItr d p31 => exact .inl .same
  | issued d p31 h => exact .inl (.issued h)
  | loaded d p31 => exact .inl .same
  | cleared d p31 => exact .inr ⟨d, p31, rfl, .cleared⟩
  | clearedAndEvent d p31 t hb h =>
    obtain ⟨hh, code, hk, ⟨hm, rfl⟩ | ⟨hm, a, ha, rfl⟩⟩ := debugEvent_ok h
    · simp only [moeCode, Option.some.injEq] at hk
      subst hk
      exact .inr ⟨d, p31, rfl, .clearedAndHalted hb hh hm⟩
    · simp [debugExceptionKind] at ha

/-- What an event can make of DBGDSCR. -/
theorem eventStep_dscr {e : Event} {s t : State} (h : eventStep e s = .ok t) :
    DscrStep s t.dscr ∨ ResetStep s.dscr e t.dscr := by
  cases e with
  | debugReset =>
    simp only [eventStep, Except.ok.injEq] at h
    subst h
    exact .inr (.debugReset _)
  | processorReset =>
    obtain ⟨hi, rfl⟩ := processorReset_ok h
    rw [underReset_dscr] at hi
    rw [State.leaveReset_dscr, underReset_dscr]
    split
    · exact .inr (.bothResets _)
    · rename_i hc
      rw [if_neg hc] at hi
      exact .inr (.processorReset hi)
  | retire =>
    left
    simp only [eventStep, Except.ok.injEq] at h
    subst h; exact .retired
  | procReadDtrrx rd =>
    left
    obtain ⟨-, ⟨-, rfl⟩ | ⟨-, rfl⟩⟩ := procReadDtrrx_ok h
    · simpa using DscrStep.trapped (s := s)
    · exact .readDtrrx
  | procWriteDtrtx v =>
    left
    obtain ⟨-, ⟨-, rfl⟩ | ⟨-, rfl⟩⟩ := procWriteDtrtx_ok h
    · simpa using DscrStep.trapped (s := s)
    · exact .wroteDtrtx
  | debugEvent k =>
    left
    obtain ⟨hh, code, hk, ⟨hm, rfl⟩ | ⟨hm, a, ha, rfl⟩⟩ := debugEvent_ok h
    · exact .entered k code hk hh hm
    · rw [debugException_dscr _ _ _ (debugExceptionKind_ne ha)]
      exact .debugException k code hk hh hm
  | beginExit =>
    left
    obtain ⟨hh, rfl⟩ := beginExit_ok h
    exact .exiting hh
  | completeExit =>
    left
    obtain ⟨hh, hr, hi, rfl⟩ := completeExit_ok h
    exact .exited hh hr hi
  | undefInDebugState =>
    left
    simp only [eventStep, undefInDebugState] at h
    split at h
    · rename_i hh
      simp only [Except.ok.injEq] at h
      subst h; exact .undef hh
    · cases h
  | syncAbortInDebugState =>
    left
    simp only [eventStep, syncAbortInDebugState] at h
    split at h
    · rename_i hh
      simp only [Except.ok.injEq] at h
      subst h; exact .syncAbort hh
    · cases h
  | issueComplete =>
    left
    obtain ⟨hh, -, ⟨-, rfl⟩ | ⟨-, rfl⟩⟩ := issueComplete_ok h
    · exact .issueExcepted hh
    · exact .issueRetired hh
  | asyncAbort ends =>
    left
    simp only [eventStep, Except.ok.injEq, State.asyncAbort] at h
    split at h
    · rename_i hh
      split at h <;> subst h <;> exact .asyncAbort hh
    · subst h; exact .same
  | setDbgen b | setLocked b | setIrq b | setFiq b | setCoreDbgack b | setUser b | setConds b =>
    left
    simp only [eventStep, Except.ok.injEq] at h
    subst h; exact .same
  | outsideProcessor x pc user =>
    left
    simp only [eventStep, Except.ok.injEq] at h
    subst h; exact .same
  | outsideStore a b =>
    left
    simp only [eventStep, Except.ok.injEq] at h
    subst h; exact .same

/-- What the debugger's turn can make of DBGDSCR. -/
theorem dbgTurn_dscr {s t : State} (h : dbgTurn s = .next t) :
    DscrStep s t.dscr ∨ ∃ d p31 q, s.dbgQueue = .writeDrcr d p31 :: q ∧ t.dbgQueue = q ∧ DrcrStep s d t.dscr := by
  obtain ⟨-, rfl⟩ | ⟨a, q, hq, ⟨-, rfl⟩ | ⟨u, r, hu, rfl⟩⟩ := dbgTurn_next h
  · exact .inl .same
  · exact .inl .same
  · obtain hd | ⟨d, p31, rfl, hd⟩ := accessDone_dscr hu
    · exact .inl hd
    · exact .inr ⟨d, p31, q, hq, rfl, hd⟩

/-- What the processor's turn can make of DBGDSCR. -/
theorem procTurn_dscr {s t : State} (h : procTurn s = .next t) : DscrStep s t.dscr := by
  obtain rfl | ⟨i, hi⟩ := procTurn_next h
  · exact .same
  · exact exec_dscr hi

/-- `DscrStep` reads nothing of the schedule. -/
theorem DscrStep.of_sched {s : State} {rest : List Turn} {f : DscrState}
    (h : DscrStep { s with sched := rest } f) : DscrStep s f := by
  cases h with
  | same => exact .same
  | retired => exact .retired
  | mcr d h => exact .mcr d h
  | trapped => exact .trapped
  | latched => exact .latched
  | written d h => exact .written d h
  | filled => exact .filled
  | filledFast h => exact .filledFast h
  | emptied => exact .emptied
  | emptiedFast h => exact .emptiedFast h
  | issued h => exact .issued h
  | readDtrrx => exact .readDtrrx
  | wroteDtrtx => exact .wroteDtrtx
  | entered k code hk hh hm => exact .entered k code hk hh hm
  | debugException k code hk hh hm => exact .debugException k code hk hh hm
  | exiting hh => exact .exiting hh
  | exited hh hr hi => exact .exited hh hr hi
  | undef hh => exact .undef hh
  | syncAbort hh => exact .syncAbort hh
  | asyncAbort hh => exact .asyncAbort hh
  | issueExcepted hh => exact .issueExcepted hh
  | issueRetired hh => exact .issueRetired hh

/-- `DrcrStep` reads nothing of the schedule. -/
theorem DrcrStep.of_sched {s : State} {rest : List Turn} {d : Word} {f : DscrState}
    (h : DrcrStep { s with sched := rest } d f) : DrcrStep s d f := by
  cases h with
  | cleared => exact .cleared
  | clearedAndHalted hb hh hm => exact .clearedAndHalted hb hh hm

/-- Everything one step can make of DBGDSCR: a change that `DscrStep` lists, the debugger's write of DBGDRCR, or a
reset the schedule names. -/
theorem step_dscr {s t : State} (h : step s = .next t) :
    DscrStep s t.dscr ∨
      (∃ d p31 q rest, s.Accesses (.writeDrcr d p31) q rest ∧ t.dbgQueue = q ∧ DrcrStep s d t.dscr) ∨
      ∃ e, s.sched.head? = some (.event e) ∧ ResetStep s.dscr e t.dscr := by
  obtain ⟨-, h⟩ | ⟨rest, ⟨-, h⟩ | ⟨hs, h⟩ | ⟨e, hs, h⟩⟩ := step_next h
  · exact .inl (procTurn_dscr h)
  · exact .inl (procTurn_dscr h).of_sched
  · obtain hd | ⟨d, p31, q, hq, ht, hd⟩ := dbgTurn_dscr h
    · exact .inl hd.of_sched
    · exact .inr (.inl ⟨d, p31, q, rest, ⟨hs, hq⟩, ht, hd.of_sched⟩)
  · obtain h | h := eventStep_dscr h
    · exact .inl h.of_sched
    · exact .inr (.inr ⟨e, by simp [hs], h⟩)

end Sys2Proof.Machine
end

