-- ==== Sys2Proof/Tests/Slice0.lean ====
section
/-! SUPPORT. Tests: expected values are the spec's own, from 95_test_vectors.md (each test names its vector), and for
each obligation that has hypotheses a state and operands that meet them together. -/

namespace Sys2Proof.Tests

open Sys2Proof Sys2Proof.Machine

/-! ### Small states. `State.reset` is the base state S0 of 95_test_vectors.md. -/

/-- The state an outcome gives. -/
def after (o : Host.Outcome State Fault Refusal) : State :=
  match o with
  | .next t => t
  | .fault _ => State.reset
  | .refused _ => State.reset

/-- The refusal an outcome gives. -/
def refusal (o : Host.Outcome State Fault Refusal) : Option Refusal :=
  match o with
  | .next _ => none
  | .fault _ => none
  | .refused r => some r

/-- S0 with another record in DBGDSCR. -/
def s0 (f : DscrState) : State := { State.reset with dscr := f }

/-- S0's record. -/
def d0 : DscrState := DscrState.reset

/-- The record of a processor halted by an external request with `itr_en` set, in Stall mode. -/
def dHalted : DscrState :=
  { d0 with
    halted := true, moe := 0b0100#4, instrcomplL := true, adadiscard := true, haltProg := true, itrEn := true,
    pipeadv := true, dtrAccess := 0b01#2 }

/-- S0 with one register of the two instructions' operand set. -/
def withX (s : State) (i : Fin 15) (v : Word) : State := s.writeReg i v

/-- The debugger makes one access next. -/
def dbg (s : State) (a : ApbAccess) : State := { s with dbgQueue := [a], sched := [.dbg] }

/-- One event comes next. -/
def ev (s : State) (e : Event) : State := { s with sched := [.event e] }

theorem dbg_accesses (s : State) (a : ApbAccess) : (dbg s a).Accesses a [] [] := ⟨rfl, rfl⟩

theorem ev_next (s : State) (e : Event) : (ev s e).Next (.event e) [] := rfl

/-! ### WellFormed refuses an ill-formed term -/

theorem test_wf_refuses_mrc : (Instr.mrcDbgdscr 0b1111#4 (.gpr 0)).wf = false := by decide

theorem test_wf_refuses_mcr : (Instr.mcrDbgdscr 0b1111#4 .r15).wf = false := by decide

/-! ### Decoding, words of V-EN-1 to V-EN-9 -/

theorem test_decode_mrc_r0 :
    decodeWord 0b11101110000100000000111000010001#32 = .ok (.mrcDbgdscr 0b1110#4 (.gpr 0)) := by decide

theorem test_decode_mrc_cond : decodeWord 0x0E101E11#32 = .ok (.mrcDbgdscr 0b0000#4 (.gpr 1)) := by decide

theorem test_decode_mcr_r7 :
    decodeWord 0b11101110000000000111111000010001#32 = .ok (.mcrDbgdscr 0b1110#4 (.gpr 7)) := by decide

theorem test_decode_mcr_r15 : decodeWord 0xEE00FE11#32 = .ok (.mcrDbgdscr 0b1110#4 .r15) := by decide

theorem test_decode_bytes :
    decode .little [0x11#8, 0x0E#8, 0x10#8, 0xEE#8] = .ok (.mrcDbgdscr 0b1110#4 (.gpr 0), []) := by decide

theorem test_decode_refuses :
    [0xEE110E11#32, 0xEE100E31#32, 0xEE100F11#32, 0xEE300E11#32, 0xEE100E10#32, 0xEE100E15#32].map
        (fun w => (decodeWord w).toOption) = [none, none, none, none, none, none] := by decide

theorem test_decode_refuses_unconditional : decodeWord 0xFE100E11#32 = .error .unconditional := by decide

/-! ### The two instructions -/

/-- P5 step 5. -/
theorem test_mrc_in_debug_state :
    (after (exec (.mrcDbgdscr 0b1110#4 (.gpr 0)) (s0 { dHalted with instrcompl := false, instrcomplL := false }))).x[0] =
      0x02186013#32 := by
  rfl

/-- V-AC-1. -/
theorem test_mrc_traps_in_user_mode :
    ∃ t, exec (.mrcDbgdscr 0b1110#4 (.gpr 0))
        { withX (s0 { d0 with comms := true }) 0 0x55555555#32 with user := true, pc := 0x100#32 } = .next t ∧
      t.x[0] = 0x55555555#32 ∧ t.pc = 0x100#32 ∧ t.dscr.pipeadv = false ∧
      t.handover = [⟨.undefinedInstruction, 0x100#32⟩] :=
  ⟨_, rfl, rfl, rfl, rfl, rfl⟩

/-- V-WR-5a: what the MCR stores, and what an MRC then shows for a draw whose bit 24 is 1. -/
theorem test_mcr_stores_the_control_bits :
    dscrCp14 (after (exec (.mcrDbgdscr 0b1110#4 (.gpr 0)) (withX State.reset 0 0x6F28DDFF#32))) 0x01000000#32 =
      0x0320DC02#32 := by decide

/-- V-WR-5b: the same with every open bit in `W_OPEN`. -/
theorem test_mcr_stores_the_open_bits :
    dscrCp14
        (after (exec (.mcrDbgdscr 0b1110#4 (.gpr 0))
          { withX State.reset 0 0x6F28DDFF#32 with cfg := { Config.spec with wOpen := openMask } })) 0#32 =
      0x6E28DDFE#32 := by decide

/-! ### Views, V-RD -/

/-- V-RD-2, both values of the drawn bit. -/
theorem test_view_live :
    dscrCp14 (s0 { d0 with rxfull := true, pipeadv := true }) 0#32 = 0x4A000002#32 ∧
    dscrCp14 (s0 { d0 with rxfull := true, pipeadv := true }) 0xFFFFFFFF#32 = 0x4B000002#32 := by decide

/-- V-RD-5. -/
theorem test_view_maximum :
    dscrApb (s0 ⟨true, true, true, true, true, true, true, 0b10#2, true, true, true, true, true, true, true, true, true,
      true, 0b1010#4, true, true⟩) false 0#32 = 0x6F28FDEB#32 := by decide

/-- The start record of V-RD-6a to V-RD-6c. -/
def dStale : DscrState :=
  { d0 with txfull := true, rxfullL := true, instrcomplL := true, halted := true, adadiscard := true }

/-- V-RD-6a and V-RD-6c: a locked read shows the old latches; an unlocked one refreshes them. -/
theorem test_read_of_dscr :
    (after (step (dbg { s0 dStale with locked := true } (.readDscr false)))).reply = some (.value 0x29080003#32) ∧
    (after (step (dbg (s0 dStale) (.readDscr false)))).reply = some (.value 0x25080003#32) :=
  ⟨rfl, rfl⟩

/-! ### Accesses and events, one step each -/

/-- V-NB-3. -/
theorem test_non_blocking_write_ignored :
    (after (step (dbg (s0 { d0 with rxfullL := true }) (.writeDtrrx 0xAAAAAAAA#32 false)))).dtrrx = 0#32 := by rfl

/-- V-ST-3 case b. -/
theorem test_stall_itr_write_held :
    (after (step (dbg (s0 { dHalted with instrcompl := false }) (.writeItr 0xEE100E11#32 false)))).portHeld = true := by
  rfl

/-- V-FA-4: the hold test comes first. -/
theorem test_fast_write :
    refusal (step (dbg (s0 { d0 with dtrAccess := 0b10#2 }) (.writeDtrrx 9#32 false))) = some .fastIssueNotEnabled ∧
    (after (step (dbg (s0 { d0 with dtrAccess := 0b10#2, rxfull := true }) (.writeDtrrx 9#32 false)))).portHeld =
      true := ⟨rfl, rfl⟩

/-- V-EV-5. -/
theorem test_debug_event_enters :
    dscrApb (after (step (ev (s0 { d0 with haltProg := true, pipeadv := true }) (.debugEvent .externalRequest)))) true
      0#32 = 0x03084013#32 := by rfl

/-- V-EV-4. -/
theorem test_proc_write_dtrtx :
    (after (step (ev (s0 { d0 with txfull := true }) (.procWriteDtrtx 0x22222222#32)))).dtrtx = 0x22222222#32 ∧
    (after (step (ev (s0 { d0 with txfull := true }) (.procWriteDtrtx 0x22222222#32)))).dscr.rxfull = false :=
  ⟨rfl, rfl⟩

/-- V-RS-4. -/
theorem test_debug_reset_keeps_run_state :
    (after (step (ev (s0 { dHalted with restarted := false }) .debugReset))).dscr.restarted = false ∧
    (after (step (ev (s0 { dHalted with restarted := false }) .debugReset))).dscr.itrEn = false := ⟨rfl, rfl⟩

/-- V-EN-11: the pc wraps. -/
theorem test_fetch_at_the_top :
    (after (step ({ State.reset with pc := 0xFFFFFFFC#32 }.withFetchWord 32 0xEE100E11))).pc = 0#32 := by rfl

/-- V-EN-10. -/
theorem test_misaligned_pc :
    refusal (step ({ State.reset with pc := 0x00008002#32 }.withFetchWord 32 0xEE100E11)) = some .misalignedPc := by rfl

/-! ### Witnesses: the hypotheses of each obligation can be met -/

theorem witness_DecodeUndoesEncode :
    (Instr.mrcDbgdscr 0b0000#4 (.gpr 14)).wf = true ∧ (Instr.mcrDbgdscr 0b1110#4 .r15).wf = true := by decide

theorem witness_DecodedWordEncodesBack : ∃ i, decodeWord 0x0E101E11#32 = .ok i := ⟨_, rfl⟩

/-- An MRC in memory, and one in DBGITR. -/
def ready : State := { State.reset with pc := 0x8000#32 }.withFetchWord 32 0xEE100E11

def readyHalted : State := (s0 dHalted).withFetchWord 32 0xEE100E11

theorem witness_StepRunsTheDecodedInstruction :
    (ready.sched = [] ∧ ready.dscr.halted = false ∧ ready.handover = [] ∧
      ready.pc.extractLsb' 0 2 = 0#2 ∧
      ready.mem.readBytes ready.pc.toNat 4 = .ok [0x11#8, 0x0E#8, 0x10#8, 0xEE#8] ∧
      decode ready.cfg.instrEndian [0x11#8, 0x0E#8, 0x10#8, 0xEE#8] = .ok (.mrcDbgdscr 0b1110#4 (.gpr 0), [])) ∧
    ({ readyHalted with sched := [.proc] }.sched = [.proc] ∧ readyHalted.dscr.halted = true ∧
      readyHalted.issue = .begun 0xEE100E11#32 ∧
      readyHalted.dscr.instrcompl = false ∧
      decodeWord 0xEE100E11#32 = .ok (.mrcDbgdscr 0b1110#4 (.gpr 0))) := by decide

theorem witness_PlacedWordIsFetchedAndRun :
    (Instr.mcrDbgdscr 0b1101#4 (.gpr 3)).wf = true ∧ (s0 dHalted).dscr.halted = true ∧
    State.reset.pc.extractLsb' 0 2 = 0#2 := by decide

theorem witness_OtherWordsAreRefused :
    (let s := { State.reset with pc := 0x00000003#32 }
     s.sched = [] ∧ s.dscr.halted = false ∧ s.handover = [] ∧ s.pc.extractLsb' 0 2 ≠ 0#2) ∧
    (let s := State.reset.withFetchWord 32 0xFE100E11
     s.sched = [] ∧ s.dscr.halted = false ∧ s.handover = [] ∧ s.pc.extractLsb' 0 2 = 0#2 ∧
      s.mem.readBytes s.pc.toNat 4 = .ok (bytesOfWord s.cfg.instrEndian 0xFE100E11#32) ∧
      condField 0xFE100E11#32 = 0b1111#4) ∧
    (let s := (s0 dHalted).withFetchWord 32 0xEE100E31
     s.sched = [] ∧ s.dscr.halted = true ∧ s.issue = .begun 0xEE100E31#32 ∧
      s.dscr.instrcompl = false ∧ (0xEE100E31#32 : Word) &&& 0x0FFF0FFF#32 ≠ 0x0E100E11#32 ∧
      (0xEE100E31#32 : Word) &&& 0x0FFF0FFF#32 ≠ 0x0E000E11#32) := by decide

/-- The same hypotheses open MrcReadsTheRegister: a privileged read, and a User mode read with `comms` clear. -/
theorem witness_MrcReadsTheRegister :
    (0b1101#4 : Cond) ≠ 0b1111#4 ∧ conditionPassed State.reset 0b1101#4 = true ∧ State.reset.user = false ∧
    (let s := { State.reset with user := true }
     conditionPassed s 0b0000#4 = true ∧ s.user = true ∧ s.dscr.comms = false) := by decide

/-- Data 0 in normal state, and data with `itr_en` in debug state. -/
theorem witness_McrWritesTheRegister :
    (let s := { State.reset with user := true }
     conditionPassed s 0b0000#4 = true ∧ s.user = true ∧ s.dscr.comms = false ∧ s.cfg.userDscrWrite = .permitted ∧
      s.x[14] &&& 0x90C70200#32 = 0#32 ∧ s.x[14].extractLsb' 20 2 ≠ 0b11#2 ∧ s.x[14].getLsbD 13 = false) ∧
    (let s := withX (s0 dHalted) 0 0x0020FC00#32
     conditionPassed s 0b1110#4 = true ∧ s.user = false ∧ s.x[0] &&& 0x90C70200#32 = 0#32 ∧
      s.x[0].extractLsb' 20 2 ≠ 0b11#2 ∧ s.x[0].getLsbD 13 = true ∧ s.dscr.halted = true) := by decide

/-- One word of data for each reason to refuse, and one that is accepted. -/
theorem witness_McrRefusesExactlyBadData :
    conditionPassed State.reset 0b1110#4 = true ∧ State.reset.user = false ∧
    (withX State.reset 0 0x00000200#32).x[0] &&& 0x90C70200#32 ≠ 0#32 ∧
    (withX State.reset 0 0x80000000#32).x[0] &&& 0x90C70200#32 ≠ 0#32 ∧
    ((withX State.reset 0 0x00300000#32).x[0] &&& 0x90C70200#32 = 0#32 ∧
      (withX State.reset 0 0x00300000#32).x[0].extractLsb' 20 2 = 0b11#2) ∧
    ((withX State.reset 0 0x00002000#32).x[0] &&& 0x90C70200#32 = 0#32 ∧
      (withX State.reset 0 0x00002000#32).x[0].extractLsb' 20 2 ≠ 0b11#2 ∧
      (withX State.reset 0 0x00002000#32).x[0].getLsbD 13 = true ∧
      (withX State.reset 0 0x00002000#32).dscr.halted = false) ∧
    (∃ t, exec (.mcrDbgdscr 0b1110#4 (.gpr 0)) (withX State.reset 0 0x00008800#32) = .next t) :=
  ⟨by decide, by decide, by decide, by decide, by decide, by decide, ⟨_, rfl⟩⟩

theorem witness_FailedConditionOnlyRetires :
    (Instr.mcrDbgdscr 0b1101#4 .r15).cond ≠ 0b1111#4 ∧
    conditionPassed { State.reset with conds := 0x1FFF#14 } (Instr.mcrDbgdscr 0b1101#4 .r15).cond = false := by decide

theorem witness_RdFifteenIsRefused :
    (Instr.mrcDbgdscr 0b1110#4 .r15).cond ≠ 0b1111#4 ∧
    conditionPassed State.reset (Instr.mrcDbgdscr 0b1110#4 .r15).cond = true ∧
    (Instr.mrcDbgdscr 0b1110#4 .r15).rd = .r15 := by decide

theorem witness_UserAccessWithCommsSetTraps :
    (let s := { s0 { d0 with comms := true } with user := true }
     (Instr.mrcDbgdscr 0b1110#4 (.gpr 14)).cond ≠ 0b1111#4 ∧
      conditionPassed s (Instr.mrcDbgdscr 0b1110#4 (.gpr 14)).cond = true ∧
      (Instr.mrcDbgdscr 0b1110#4 (.gpr 14)).rd = .gpr 14 ∧ s.user = true ∧ s.dscr.comms = true) := by decide

theorem witness_UserWriteFollowsItsParameter :
    (let s := { State.reset with user := true, cfg := { Config.spec with userDscrWrite := .undefinedInstruction } }
     conditionPassed s 0b1110#4 = true ∧ s.user = true ∧ s.dscr.comms = false ∧
      s.cfg.userDscrWrite = .undefinedInstruction) ∧
    (let s := { withX State.reset 0 0x00001000#32 with user := true }
     conditionPassed s 0b1110#4 = true ∧ s.user = true ∧ s.dscr.comms = false ∧
      s.cfg.userDscrWrite = .permitted ∧
      (∃ t, exec (.mcrDbgdscr 0b1110#4 (.gpr 0)) { s with user := false } = .next t) ∧
      ∃ e, exec (.mcrDbgdscr 0b1110#4 (.gpr 0)) { withX s 0 0x00000200#32 with user := false } = .refused e) :=
  ⟨by decide, by decide, by decide, by decide, by decide, ⟨_, rfl⟩, ⟨_, rfl⟩⟩

theorem witness_MrcFrame : ∃ t, exec (.mrcDbgdscr 0b1110#4 (.gpr 14)) State.reset = .next t := ⟨_, rfl⟩

theorem witness_McrFrame : ∃ t, exec (.mcrDbgdscr 0b1110#4 (.gpr 14)) State.reset = .next t := ⟨_, rfl⟩

theorem reset_inv : State.reset.Inv :=
  ⟨rfl, by decide, by decide, by decide, by intro h; cases h⟩

theorem witness_ReadValueLaws :
    conditionPassed State.reset 0b1110#4 = true ∧ State.reset.user = false ∧
    (∃ t, exec (.mrcDbgdscr 0b1110#4 (.gpr 0)) State.reset = .next t) ∧ State.reset.cfg.cp14LatchView = .live ∧
    State.reset.Inv ∧ State.reset.dscr.halted = false :=
  ⟨rfl, rfl, ⟨_, rfl⟩, rfl, reset_inv, rfl⟩

theorem witness_MrcReadsBackWhatMcrWrote :
    (∃ t u, exec (.mcrDbgdscr 0b1110#4 (.gpr 0)) (withX State.reset 0 0x00008800#32) = .next t ∧
      exec (.mrcDbgdscr 0b1110#4 (.gpr 0)) t = .next u ∧ openCp14 (withX State.reset 0 0x00008800#32).cfg = 0#32 ∧
      (withX State.reset 0 0x00008800#32).user = false) ∧
    (∃ t u, exec (.mcrDbgdscr 0b1110#4 (.gpr 0)) (withX (s0 dHalted) 0 0x00002000#32) = .next t ∧
      exec (.mrcDbgdscr 0b1110#4 (.gpr 14)) t = .next u ∧
      (withX (s0 dHalted) 0 0x00002000#32).dscr.halted = true) :=
  ⟨⟨_, _, rfl, rfl, by decide, rfl⟩, ⟨_, _, rfl, rfl, rfl⟩⟩

theorem witness_ReadModifyWriteKeepsTheRegister :
    (State.reset.Inv ∧ State.reset.user = false ∧ openCp14 State.reset.cfg = 0#32 ∧ State.reset.dbgen = true) ∧
    (let s := { State.reset with dbgen := false }
     s.Inv ∧ s.user = false ∧ openCp14 s.cfg = 0#32 ∧ s.dbgen = false) :=
  ⟨⟨reset_inv, rfl, by decide, rfl⟩,
    ⟨rfl, by decide, by decide, by decide, by intro h; cases h⟩, rfl, by decide, rfl⟩

theorem witness_RepeatedWriteChangesNothing : ∃ g, dscrWrite openMask d0 0x6F28DDFF#32 = .ok g := ⟨_, rfl⟩

theorem witness_IntDisAndDbgAck :
    (s0 { d0 with intdis := true, dbgack := true }).dscr.intdis = true ∧
    (s0 { d0 with intdis := true, dbgack := true }).dscr.dbgack = true ∧ State.reset.dscr.intdis = false ∧
    State.reset.dscr.dbgack = false ∧
    (∃ g, dscrWrite 0#32 d0 0x00000C00#32 = .ok g) :=
  ⟨rfl, rfl, rfl, rfl, ⟨_, rfl⟩⟩

theorem witness_StepKeepsTheInvariant : State.reset.Inv ∧ ∃ t, step (ev State.reset .retire) = .next t :=
  ⟨reset_inv, ⟨_, rfl⟩⟩

/-- The state before the step of `witness_StepKeepsTheInvariant` meets the invariant too. -/
theorem witness_StepKeepsTheInvariant_start : (ev State.reset .retire).Inv :=
  ⟨rfl, by decide, by decide, by decide, by intro h; cases h⟩

theorem witness_StepKeepsTheParameters : ∃ t, step ready = .next t := ⟨_, rfl⟩

/-- Halting debug-mode, in normal state. -/
def haltable : State := s0 { d0 with haltProg := true }

theorem witness_DebugStateIsEnteredOnlyFromHaltingMode :
    ∃ t, step (ev haltable (.debugEvent .breakpoint)) = .next t ∧
      (ev haltable (.debugEvent .breakpoint)).dscr.halted = false ∧ t.dscr.halted = true :=
  ⟨_, rfl, rfl, rfl⟩

/-- A processor that is leaving debug state. -/
def leaving : State := s0 { dHalted with itrEn := false, restarted := false }

theorem witness_RunStateBitsMoveOnlyByTheirEvents :
    (∃ t, step (ev (s0 dHalted) .beginExit) = .next t ∧ (s0 dHalted).dscr.restarted = true ∧
      t.dscr.restarted = false ∧ (ev (s0 dHalted) .beginExit).Next (.event .beginExit) []) ∧
    (∃ t, step (ev leaving .completeExit) = .next t ∧ leaving.dscr.restarted = false ∧ t.dscr.restarted = true ∧
      leaving.dscr.halted = true ∧ t.dscr.halted = false ∧
      (ev leaving .completeExit).Next (.event .completeExit) []) ∧
    (∃ t, step (ev leaving .processorReset) = .next t ∧
      (ev leaving .processorReset).Next (.event .processorReset) []) ∧
    (∃ t, step (ev haltable (.debugEvent .haltRequest)) = .next t ∧ haltable.dscr.halted = false ∧
      t.dscr.halted = true) ∧
    (∃ t, step (dbg haltable (.writeDrcr 1#32 false)) = .next t ∧ t.dscr.halted = true) ∧
    (∃ t, exec (.mcrDbgdscr 0b1110#4 (.gpr 0)) State.reset = .next t) ∧ (∃ g, dscrWrite 0#32 d0 3#32 = .ok g) :=
  ⟨⟨_, rfl, rfl, rfl, rfl⟩, ⟨_, rfl, rfl, rfl, rfl, rfl, rfl⟩, ⟨_, rfl, rfl⟩, ⟨_, rfl, rfl, rfl⟩,
    ⟨_, rfl, rfl⟩, ⟨_, rfl⟩, ⟨_, rfl⟩⟩

theorem witness_StickyBitsRiseOnlyInDebugState :
    (let s := ev (s0 { d0 with stickyUnd := true, stickyAabt := true, stickySabt := true }) .retire
     s.Closed 0x000001C0#32 ∧ ¬ s.ResetNext ∧ s.dscr.halted = false ∧
      ∃ t, step s = .next t ∧ t.dscr.stickyUnd = true ∧ t.dscr.stickyAabt = true ∧ t.dscr.stickySabt = true) :=
  ⟨⟨by decide, by decide⟩, by simp [State.ResetNext, ev], rfl, ⟨_, rfl, rfl, rfl, rfl⟩⟩

theorem witness_PipeAdvIsClearedOnlyByDrcr :
    (let s := dbg (s0 { d0 with pipeadv := true }) (.writeDrcr 8#32 false)
     ¬ s.ResetNext ∧ s.dscr.pipeadv = true ∧ ∃ t, step s = .next t ∧ t.dscr.pipeadv = false) :=
  ⟨by simp [State.ResetNext, dbg], rfl, ⟨_, rfl, rfl⟩⟩

theorem witness_RxFullImpliesItsLatch :
    (let s := dbg State.reset (.writeDtrrx 5#32 false)
     s.Closed 0x48000000#32 ∧ (s.dscr.rxfull = true → s.dscr.rxfullL = true) ∧
      ∃ t, step s = .next t ∧ t.dscr.rxfull = true) :=
  ⟨⟨by decide, by decide⟩, by decide, ⟨_, rfl, rfl⟩⟩

theorem witness_DebuggerReadLatchesAndReturns :
    ((dbg State.reset (.readDscr false)).Accesses (.readDscr false) [] [] ∧
      (dbg State.reset (.readDscr false)).locked = false) ∧
    (let s := { State.reset with locked := true }
     (dbg s (.readDscr false)).Accesses (.readDscr false) [] [] ∧ s.locked = true ∧
      s.cfg.lockedReadLatches = false) :=
  ⟨⟨dbg_accesses _ _, rfl⟩, dbg_accesses _ _, rfl, rfl⟩

theorem witness_DebuggerWriteStoresLikeMcr :
    (dbg State.reset (.writeDscr 0x4000#32 false)).Accesses (.writeDscr 0x4000#32 false) [] [] ∧
    State.reset.locked = false ∧ State.reset.cfg.wIfaceEqual = true ∧
    (∃ g, dscrWrite (openApb State.reset.cfg) State.reset.dscr 0x4000#32 = .ok g) ∧
    (dbg State.reset (.writeDscr 0x200#32 false)).Accesses (.writeDscr 0x200#32 false) [] [] ∧
    (∃ e, dscrWrite (openApb State.reset.cfg) State.reset.dscr 0x200#32 = .error e) ∧
    (let r := withX State.reset 3 0x4000#32
     r.dscr = State.reset.dscr ∧ r.cfg = State.reset.cfg ∧ r.user = false ∧ r.x[3] = 0x4000#32 ∧
      ∃ t, exec (.mcrDbgdscr 0b1110#4 (.gpr 3)) r = .next t) ∧
    (let r := withX State.reset 3 0x200#32
     r.x[3] = 0x200#32 ∧ ∃ e, exec (.mcrDbgdscr 0b1110#4 (.gpr 3)) r = .refused e) :=
  ⟨dbg_accesses _ _, rfl, rfl, ⟨_, rfl⟩, dbg_accesses _ _, ⟨_, rfl⟩, ⟨rfl, rfl, rfl, rfl, _, rfl⟩, rfl, _, rfl⟩

/-- Data the write accepts, with equal interfaces and with different ones, and data of each refusal. -/
theorem witness_DebuggerWriteStoresTheRegister :
    (let s := dbg { State.reset with cfg := { Config.spec with wIfaceEqual := false, wOpenApb := 0x40000000#32 } }
       (.writeDscr 0x40004000#32 false)
     s.Accesses (.writeDscr 0x40004000#32 false) [] [] ∧ s.locked = false ∧
      (if s.cfg.wIfaceEqual then s.cfg.wOpen else s.cfg.wOpenApb) = 0x40000000#32) ∧
    (0x40004000#32 &&& 0x90C70200#32 = 0#32 ∧ (0x40004000#32).extractLsb' 20 2 ≠ 0b11#2 ∧
      (0x40004000#32).getLsbD 13 = false) ∧
    (∀ d, (dbg State.reset (.writeDscr d true)).Accesses (.writeDscr d true) [] []) ∧
    0x200#32 &&& 0x90C70200#32 ≠ 0#32 ∧
    (0x300000#32 &&& 0x90C70200#32 = 0#32 ∧ (0x300000#32).extractLsb' 20 2 = 0b11#2) ∧
    (0x2000#32 &&& 0x90C70200#32 = 0#32 ∧ (0x2000#32).extractLsb' 20 2 ≠ 0b11#2 ∧ (0x2000#32).getLsbD 13 = true ∧
      State.reset.dscr.halted = false) :=
  ⟨⟨dbg_accesses _ _, rfl, rfl⟩, by decide, fun _ => dbg_accesses _ _, by decide, by decide, by decide⟩

theorem witness_LockedAccessIsRefused :
    (let s := { State.reset with locked := true }
     s.locked = true ∧ (dbg s (.writeDtrrx 5#32 false)).Accesses (.writeDtrrx 5#32 false) [] []) :=
  ⟨rfl, dbg_accesses _ _⟩

theorem witness_NonBlockingDtrrxWrite :
    ((dbg State.reset (.writeDtrrx 5#32 false)).Accesses (.writeDtrrx 5#32 false) [] [] ∧
      State.reset.locked = false ∧ State.reset.dscr.dtrAccess = 0b00#2 ∧ State.reset.dscr.rxfullL = false) ∧
    (let s := s0 { d0 with rxfullL := true }
     (dbg s (.writeDtrrx 5#32 true)).Accesses (.writeDtrrx 5#32 true) [] [] ∧ s.dscr.dtrAccess = 0b00#2 ∧
      s.dscr.rxfullL = true) :=
  ⟨⟨dbg_accesses _ _, rfl, rfl, rfl⟩, dbg_accesses _ _, rfl, rfl⟩

theorem witness_NonBlockingDtrtxRead :
    ((dbg State.reset (.readDtrtx false)).Accesses (.readDtrtx false) [] [] ∧ State.reset.locked = false ∧
      State.reset.dscr.dtrAccess = 0b00#2 ∧ State.reset.dscr.txfullL = false) ∧
    (let s := s0 { d0 with txfullL := true }
     (dbg s (.readDtrtx true)).Accesses (.readDtrtx true) [] [] ∧ s.dscr.dtrAccess = 0b00#2 ∧
      s.dscr.txfullL = true) :=
  ⟨⟨dbg_accesses _ _, rfl, rfl, rfl⟩, dbg_accesses _ _, rfl, rfl⟩

/-- Every clause, in Non-blocking mode (gate: the latch) and in Stall mode (gate: the live flag). -/
theorem witness_ItrWriteIssues :
    (∀ f : DscrState, (dbg (s0 f) (.writeItr 0xEE100E11#32 false)).Accesses (.writeItr 0xEE100E11#32 false) [] []) ∧
    State.reset.locked = false ∧
    (d0.dtrAccess = 0b00#2 ∧ d0.halted = false) ∧
    (let f := { dHalted with dtrAccess := 0b00#2, instrcomplL := false }
     f.dtrAccess = 0b00#2 ∧ f.halted = true ∧ f.instrcomplL = false) ∧
    (let f := { dHalted with instrcompl := false }
     f.dtrAccess = 0b01#2 ∧ f.halted = true ∧ f.instrcompl = false) ∧
    (let f := { dHalted with itrEn := false }
     f.dtrAccess = 0b01#2 ∧ f.halted = true ∧ f.instrcompl = true ∧ f.itrEn = false) ∧
    (let f := { dHalted with dtrAccess := 0b00#2 }
     f.dtrAccess = 0b00#2 ∧ f.halted = true ∧ f.instrcomplL = true ∧ f.itrEn = true) ∧
    (dHalted.dtrAccess = 0b01#2 ∧ dHalted.halted = true ∧ dHalted.instrcompl = true ∧ dHalted.itrEn = true) :=
  ⟨fun _ => dbg_accesses _ _, by decide⟩

theorem witness_StallModeTransfers :
    (∀ f : DscrState, (dbg (s0 f) (.writeDtrrx 5#32 false)).Accesses (.writeDtrrx 5#32 false) [] [] ∧
      (dbg (s0 f) (.readDtrtx false)).Accesses (.readDtrtx false) [] []) ∧
    State.reset.locked = false ∧
    (let f := { d0 with dtrAccess := 0b01#2, rxfull := true }
     f.dtrAccess = 0b01#2 ∧ f.rxfull = true ∧ f.txfull = false) ∧
    (let f := { d0 with dtrAccess := 0b01#2, txfull := true }
     f.dtrAccess = 0b01#2 ∧ f.rxfull = false ∧ f.txfull = true) :=
  ⟨fun _ => ⟨dbg_accesses _ _, dbg_accesses _ _⟩, by decide⟩

/-- A record in Fast mode. -/
def dFast : DscrState := { dHalted with dtrAccess := 0b10#2 }

theorem witness_FastModeTransfersIssue :
    (∀ f : DscrState, (dbg (s0 f) (.writeDtrrx 5#32 false)).Accesses (.writeDtrrx 5#32 false) [] [] ∧
      (dbg (s0 f) (.readDtrtx false)).Accesses (.readDtrtx false) [] []) ∧
    State.reset.locked = false ∧ dFast.dtrAccess = 0b10#2 ∧
    (let f := { dFast with rxfull := true }
     f.dtrAccess = 0b10#2 ∧ f.rxfull = true ∧ f.txfull = false) ∧
    (let f := { dFast with halted := false, itrEn := false, txfull := true }
     f.dtrAccess = 0b10#2 ∧ f.rxfull = false ∧ f.txfull = true ∧ f.halted = false ∧ f.itrEn = false) ∧
    (let f := { dFast with instrcompl := false, txfull := true }
     f.dtrAccess = 0b10#2 ∧ f.rxfull = false ∧ f.txfull = true ∧ f.halted = true ∧ f.itrEn = true ∧
      f.instrcompl = false) ∧
    (let f := { dFast with txfull := true }
     f.dtrAccess = 0b10#2 ∧ f.rxfull = false ∧ f.txfull = true ∧ f.halted = true ∧ f.itrEn = true ∧
      f.instrcompl = true) :=
  ⟨fun _ => ⟨dbg_accesses _ _, dbg_accesses _ _⟩, by decide⟩

theorem witness_FastModeItrWriteOnlyLoads :
    (∀ f : DscrState, (dbg (s0 f) (.writeItr 5#32 false)).Accesses (.writeItr 5#32 false) [] []) ∧
    State.reset.locked = false ∧
    (let f := { d0 with dtrAccess := 0b10#2 }
     f.dtrAccess = 0b10#2 ∧ f.halted = false) ∧
    (let f := { dFast with instrcompl := false }
     f.dtrAccess = 0b10#2 ∧ f.halted = true ∧ f.instrcompl = false) ∧
    (dFast.dtrAccess = 0b10#2 ∧ dFast.halted = true ∧ dFast.instrcompl = true) :=
  ⟨fun _ => dbg_accesses _ _, by decide⟩

/-- A Stall mode write held on the port, the processor about to read (V-ST-1). -/
def holding : State :=
  { s0 { d0 with dtrAccess := 0b01#2, rxfull := true, rxfullL := true } with
    dtrrx := 1#32, dbgQueue := [.writeDtrrx 2#32 true], portHeld := true, sched := [.event (.procReadDtrrx 3), .dbg] }

/-- After the processor's write of P5 step 8: the held read of DBGDTRTX is ready. -/
def heldRead : State :=
  { s0 { dHalted with instrcompl := false, txfull := true } with
    dtrtx := 0x02186013#32, issue := .executed, dbgQueue := [.readDtrtx true], portHeld := true }

/-- P5 steps 8 and 9: the completion may come between the lifting of the hold and the read, which then goes through. -/
theorem test_completion_before_held_read :
    (after (step (ev heldRead .issueComplete))).dbgQueue = [.readDtrtx true] ∧
    (after (step { after (step (ev heldRead .issueComplete)) with sched := [.dbg] })).reply =
      some (.value 0x02186013#32) := ⟨rfl, rfl⟩

/-- Both clauses: held or another agent's turn; no longer held and the debugger's turn. -/
theorem witness_HeldAccessKeepsThePort :
    (holding.portHeld = true ∧ holding.dbgQueue = [.writeDtrrx 2#32 true] ∧
      apbAccess (.writeDtrrx 2#32 true) holding = .hold ∧ ∃ t, step holding = .next t) ∧
    (heldRead.portHeld = true ∧ heldRead.dbgQueue = [.readDtrtx true] ∧
      apbAccess (.readDtrtx true) heldRead ≠ .hold ∧ { heldRead with sched := [.dbg] }.sched.head? = some .dbg ∧
      ∃ t, step { heldRead with sched := [.dbg] } = .next t) :=
  ⟨⟨rfl, rfl, rfl, ⟨_, rfl⟩⟩, rfl, rfl, by decide, rfl, ⟨_, rfl⟩⟩

theorem witness_HeldWriteFiresWhenTheProcessorReads :
    holding.dbgQueue = [.writeDtrrx 2#32 true] ∧ holding.dscr.dtrAccess = 0b01#2 ∧
    holding.dscr.rxfull = true ∧ holding.dscr.halted = false ∧ holding.user = false ∧
    holding.sched = [.event (.procReadDtrrx 3), .dbg] := by decide

/-- A debugger that polls and then makes an access. -/
def polling (f : DscrState) (a : ApbAccess) : State :=
  { s0 f with dbgQueue := [.readDscr true, a], sched := [.dbg, .dbg] }

/-- Bits 27, 26 and 24 of an unlocked read in debug state. -/
theorem polled_bits (s : State) (d : Word) (h : s.dscr.halted = true) :
    (dscrApb s true d).getLsbD 27 = s.dscr.rxfull ∧ (dscrApb s true d).getLsbD 26 = s.dscr.txfull ∧
    (dscrApb s true d).getLsbD 24 = s.dscr.instrcomplL := by
  simp only [dscrApb, State.lockedOut, Bool.not_true, Bool.and_false, Bool.false_eq_true, if_false,
    getLsbD_dscrView, shownInstrcompl, h, if_true]
  simp

/-- A record in debug state and Non-blocking mode, with both full flags and the complete flag as given. -/
def dPoll (b : Bool) : DscrState :=
  { dHalted with dtrAccess := 0b00#2, rxfull := b, txfull := b, instrcompl := b }

/-- Every clause, with the bit of the value read clear and set. -/
theorem witness_PollShowsWhetherTheAccessLands :
    ∀ b : Bool, ∀ a ∈ [ApbAccess.writeDtrrx 7#32 true, .readDtrtx true, .writeItr 7#32 true],
      (polling (dPoll b) a).dscr.dtrAccess = 0b00#2 ∧ (polling (dPoll b) a).locked = false ∧
      (polling (dPoll b) a).dscr.halted = true ∧ (polling (dPoll b) a).dscr.itrEn = true ∧
      (polling (dPoll b) a).Accesses (.readDscr true) [a] [.dbg] ∧
      ∃ t u v, step (polling (dPoll b) a) = .next t ∧ t.reply = some (.value v) ∧ step t = .next u ∧
        v.getLsbD 27 = b ∧ v.getLsbD 26 = b ∧ v.getLsbD 24 = b := by
  intro b a ha
  simp only [List.mem_cons, List.not_mem_nil, or_false] at ha
  rcases ha with rfl | rfl | rfl <;> cases b <;>
    exact ⟨rfl, rfl, rfl, rfl, ⟨rfl, rfl⟩, _, _, _, rfl, rfl, rfl, polled_bits _ _ rfl⟩

theorem witness_DrcrWriteClears :
    (dbg State.reset (.writeDrcr 0x0000000C#32 false)).Accesses (.writeDrcr 0x0000000C#32 false) [] [] ∧
    State.reset.locked = false ∧ (0x0000000C#32 : Word).getLsbD 0 = false :=
  ⟨dbg_accesses _ _, rfl, rfl⟩

/-- Bit 0 alone and with bits 3 and 2. -/
theorem witness_HaltRequestEntersDebugState :
    (∀ d : Word, (dbg haltable (.writeDrcr d false)).Accesses (.writeDrcr d false) [] []) ∧
    (1#32 : Word).getLsbD 0 = true ∧ (0x0000000D#32 : Word).getLsbD 0 = true ∧ haltable.locked = false ∧
    haltable.dscr.halted = false ∧ haltable.dbgen = true ∧ haltable.dscr.haltProg = true ∧
    ((dbg (s0 dHalted) (.writeDrcr 1#32 false)).Accesses (.writeDrcr 1#32 false) [] [] ∧
      (s0 dHalted).dscr.halted = true) :=
  ⟨fun _ => dbg_accesses _ _, rfl, rfl, rfl, rfl, rfl, rfl, dbg_accesses _ _, rfl⟩

theorem witness_ProcessorReadsDtrrx :
    ((ev State.reset (.procReadDtrrx 14)).Next (.event (.procReadDtrrx 14)) [] ∧ State.reset.dscr.halted = false ∧
      State.reset.user = false) ∧
    (let s := { s0 { d0 with comms := true } with user := true }
     (ev s (.procReadDtrrx 0)).Next (.event (.procReadDtrrx 0)) [] ∧ s.dscr.halted = false ∧ s.user = true ∧
      s.dscr.comms = true) :=
  ⟨⟨ev_next _ _, rfl, rfl⟩, ev_next _ _, rfl, rfl, rfl⟩

theorem witness_ProcessorWritesDtrtx :
    ((ev State.reset (.procWriteDtrtx 5#32)).Next (.event (.procWriteDtrtx 5#32)) [] ∧
      State.reset.dscr.halted = false ∧ State.reset.user = false) ∧
    (let s := { State.reset with user := true, cfg := { Config.spec with userDscrWrite := .undefinedInstruction } }
     (ev s (.procWriteDtrtx 5#32)).Next (.event (.procWriteDtrtx 5#32)) [] ∧ s.dscr.halted = false ∧
      s.user = true ∧ s.cfg.userDscrWrite = .undefinedInstruction) ∧
    (let s := { s0 { d0 with comms := true } with user := true }
     (ev s (.procWriteDtrtx 5#32)).Next (.event (.procWriteDtrtx 5#32)) [] ∧ s.dscr.halted = false ∧
      s.user = true ∧ s.dscr.comms = true) :=
  ⟨⟨ev_next _ _, rfl, rfl⟩, ⟨ev_next _ _, rfl, rfl, rfl⟩, ev_next _ _, rfl, rfl, rfl⟩

theorem witness_DebugEventOutcome :
    ((∀ k, (ev haltable (.debugEvent k)).Next (.event (.debugEvent k)) []) ∧ haltable.dscr.halted = false ∧
      haltable.dbgen = true ∧ haltable.dscr.haltProg = true) ∧
    (let s := s0 { d0 with monProg := true }
     (∀ k, (ev s (.debugEvent k)).Next (.event (.debugEvent k)) []) ∧ s.dscr.halted = false ∧ s.dbgen = true ∧
      s.dscr.haltProg = false ∧ s.dscr.monProg = true) ∧
    ((∀ k, (ev State.reset (.debugEvent k)).Next (.event (.debugEvent k)) []) ∧
      State.reset.dscr.haltProg = false ∧ State.reset.dscr.monProg = false) :=
  ⟨⟨fun _ => ev_next _ _, rfl, rfl, rfl⟩, ⟨fun _ => ev_next _ _, rfl, rfl, rfl, rfl⟩,
    fun _ => ev_next _ _, rfl, rfl⟩

theorem witness_ExitFromDebugState :
    ((ev (s0 dHalted) .beginExit).Next (.event .beginExit) [] ∧ (s0 dHalted).dscr.halted = true) ∧
    ((ev State.reset .beginExit).Next (.event .beginExit) [] ∧ State.reset.dscr.halted = false) ∧
    ((ev leaving .completeExit).Next (.event .completeExit) [] ∧ leaving.dscr.halted = true ∧
      leaving.dscr.restarted = false ∧ leaving.dscr.itrEn = false) ∧
    (let s := s0 { dHalted with restarted := false }
     (ev s .completeExit).Next (.event .completeExit) [] ∧ s.dscr.halted = true ∧ s.dscr.restarted = false ∧
      s.dscr.itrEn = true) ∧
    ((ev (s0 dHalted) .completeExit).Next (.event .completeExit) [] ∧ (s0 dHalted).dscr.restarted = true) :=
  ⟨⟨ev_next _ _, rfl⟩, ⟨ev_next _ _, rfl⟩, ⟨ev_next _ _, rfl, rfl, rfl⟩, ⟨ev_next _ _, rfl, rfl, rfl⟩,
    ev_next _ _, rfl⟩

theorem witness_ExceptionsInDebugState :
    (∀ e, (ev (s0 dHalted) e).Next (.event e) []) ∧ (s0 dHalted).dscr.halted = true ∧
    (s0 dHalted).dscr.adadiscard = true ∧
    (let s := s0 { dHalted with adadiscard := false }
     (∀ ends, (ev s (.asyncAbort ends)).Next (.event (.asyncAbort ends)) []) ∧ s.dscr.halted = true ∧
      s.dscr.adadiscard = false) ∧
    (ev State.reset (.asyncAbort false)).Next (.event (.asyncAbort false)) [] ∧ State.reset.dscr.halted = false :=
  ⟨fun _ => ev_next _ _, rfl, rfl, ⟨fun _ => ev_next _ _, rfl, rfl⟩, ev_next _ _, rfl⟩

/-- A debug-state processor with an instruction from DBGITR in the stage `g`. -/
def inFlight (g : IssueStage) : State := { s0 { dHalted with instrcompl := false } with issue := g }

theorem witness_IssueCompletion :
    (∀ g, (ev (inFlight g) .issueComplete).Next (.event .issueComplete) [] ∧ (inFlight g).dscr.halted = true ∧
      (inFlight g).dscr.instrcompl = false ∧ (inFlight g).issue = g) ∧
    decodeWord 0xEE100E11#32 = .ok (.mrcDbgdscr 0b1110#4 (.gpr 0)) ∧ (∃ r, decodeWord 0xEE000E15#32 = .error r) ∧
    ((ev State.reset .issueComplete).Next (.event .issueComplete) [] ∧ State.reset.dscr.halted = false) ∧
    ((ev (s0 dHalted) .issueComplete).Next (.event .issueComplete) [] ∧ (s0 dHalted).dscr.instrcompl = true) :=
  ⟨fun _ => ⟨ev_next _ _, rfl, rfl, rfl⟩, by decide, ⟨_, rfl⟩, ⟨ev_next _ _, rfl⟩, ev_next _ _, rfl⟩

/-- A word that is no MRC or MCR of DBGDSCR, permitted and not; and stages in which no transfer may come. -/
theorem witness_DtrTransfersFromDbgitr :
    (let s := inFlight (.begun 0xEE000E15#32)
     (∀ e, (ev s e).Next (.event e) []) ∧ s.dscr.halted = true ∧ s.dscr.instrcompl = false ∧
      s.issue = .begun 0xEE000E15#32 ∧ (∃ r, decodeWord 0xEE000E15#32 = .error r) ∧ s.user = false) ∧
    (let s := { inFlight (.begun 0xEE000E15#32) with
       user := true, dscr := { dHalted with instrcompl := false, comms := true } }
     (∀ e, (ev s e).Next (.event e) []) ∧ s.dscr.halted = true ∧ s.dscr.instrcompl = false ∧ s.user = true ∧
      s.dscr.comms = true) ∧
    (∀ g e, (ev (inFlight g) e).Next (.event e) [] ∧ (inFlight g).dscr.halted = true ∧ (inFlight g).issue = g) ∧
    decodeWord 0xEE100E11#32 = .ok (.mrcDbgdscr 0b1110#4 (.gpr 0)) ∧ (s0 dHalted).dscr.instrcompl = true :=
  ⟨⟨fun _ => ev_next _ _, rfl, rfl, rfl, ⟨_, rfl⟩, rfl⟩, ⟨fun _ => ev_next _ _, rfl, rfl, rfl, rfl⟩,
    fun _ _ => ⟨ev_next _ _, rfl, rfl⟩, by decide, rfl⟩

theorem witness_DbgenMasksTheEnables :
    (ev State.reset (.setDbgen false)).Next (.event (.setDbgen false)) [] := ev_next _ _

theorem witness_LockedBitChangesOnlyAccesses :
    (ev State.reset (.setLocked true)).Next (.event (.setLocked true)) [] := ev_next _ _

/-- A trap waits. -/
def trapped : State := { State.reset with handover := [⟨.undefinedInstruction, 0x100#32⟩] }

theorem witness_TrapWaitsToBeHandedOver :
    (trapped.ProcNext [] ∧ { trapped with sched := [.proc] }.ProcNext [] ∧ trapped.dscr.halted = false ∧
      trapped.handover ≠ []) ∧
    (let s := ev trapped (.outsideProcessor (Vector.replicate 15 0#32) 4#32 false)
     s.dscr.halted = false ∧ s.handover ≠ [] ∧
      s.sched = [.event (.outsideProcessor (Vector.replicate 15 0#32) 4#32 false)]) :=
  ⟨⟨.inl ⟨rfl, rfl⟩, .inr rfl, rfl, by decide⟩, rfl, by decide, rfl⟩

theorem witness_DebugResetValues :
    (ev State.reset .debugReset).Next (.event .debugReset) [] := ev_next _ _

theorem witness_ProcessorResetValues :
    ((ev (s0 dHalted) .processorReset).Next (.event .processorReset) [] ∧
      (s0 dHalted).cfg.procResetResetsControl = false ∧ (s0 dHalted).dscr.itrEn = true) ∧
    ((ev State.reset .processorReset).Next (.event .processorReset) [] ∧ State.reset.dscr.itrEn = false) ∧
    (let s := { State.reset with cfg := { Config.spec with procResetResetsControl := true } }
     (ev s .processorReset).Next (.event .processorReset) [] ∧ s.cfg.procResetResetsControl = true) :=
  ⟨⟨ev_next _ _, rfl, rfl⟩, ⟨ev_next _ _, rfl⟩, ev_next _ _, rfl⟩

/-- Both resets to come. -/
def resetting (e e' : Event) : State := { State.reset with sched := [.event e, .event e'] }

theorem witness_PowerUpState :
    ((resetting .processorReset .debugReset).sched = [.event .processorReset, .event .debugReset] ∧
      ∃ t, Sys2Proof.core.run 2 (resetting .processorReset .debugReset) = .next t) ∧
    ((resetting .debugReset .processorReset).sched = [.event .debugReset, .event .processorReset] ∧
      ∃ t, Sys2Proof.core.run 2 (resetting .debugReset .processorReset) = .next t) :=
  ⟨⟨rfl, ⟨_, rfl⟩⟩, ⟨rfl, ⟨_, rfl⟩⟩⟩

theorem witness_IssuedMrcReturnsTheView :
    (let s := { s0 dHalted with
      dbgQueue := [.writeItr (encode (.mrcDbgdscr 0b1110#4 (.gpr 0))) false]
      sched := [.dbg, .proc, .event .issueComplete] }
     s.Accesses (.writeItr (encode (.mrcDbgdscr 0b1110#4 (.gpr 0))) false) [] [.proc, .event .issueComplete] ∧
      s.locked = false ∧ s.dscr.dtrAccess = 0b01#2 ∧ s.dscr.halted = true ∧ s.dscr.itrEn = true ∧
      s.dscr.instrcompl = true ∧ s.user = false) :=
  ⟨⟨rfl, rfl⟩, rfl, rfl, rfl, rfl, rfl, rfl⟩

end Sys2Proof.Tests
end

section
/-! SUPPORT. Bits of the two read views (10_state.md R50, R51), and the statement about the APB view. -/

namespace Sys2Proof.Machine

/-! ### Single bits of a view -/

theorem dscrView_bit27 (s : State) (b27 b26 b24 : Bool) : (dscrView s b27 b26 b24).getLsbD 27 = b27 := by
  rw [getLsbD_dscrView]
  simp

theorem dscrView_bit26 (s : State) (b27 b26 b24 : Bool) : (dscrView s b27 b26 b24).getLsbD 26 = b26 := by
  rw [getLsbD_dscrView]
  simp

theorem dscrView_intdis (s : State) (b27 b26 b24 : Bool) :
    (dscrView s b27 b26 b24).getLsbD 11 = s.dscr.intdis := by
  rw [getLsbD_dscrView]
  simp

theorem dscrView_dbgack (s : State) (b27 b26 b24 : Bool) :
    (dscrView s b27 b26 b24).getLsbD 10 = s.dscr.dbgack := by
  rw [getLsbD_dscrView]
  simp

theorem dscrView_restarted (s : State) (b27 b26 b24 : Bool) :
    (dscrView s b27 b26 b24).getLsbD 1 = s.dscr.restarted := by
  rw [getLsbD_dscrView]
  simp

theorem dscrView_halted (s : State) (b27 b26 b24 : Bool) :
    (dscrView s b27 b26 b24).getLsbD 0 = s.dscr.halted := by
  rw [getLsbD_dscrView]
  simp

/-- The first two arguments of a view show in bits 27 and 26 alone. -/
theorem dscrView_bit_of_ne {k : Nat} (h27 : k ≠ 27) (h26 : k ≠ 26) (s : State) (b27 b26 c27 c26 b24 : Bool) :
    (dscrView s b27 b26 b24).getLsbD k = (dscrView s c27 c26 b24).getLsbD k := by
  simp [getLsbD_dscrView, h27, h26]

/-! ### The two views -/

/-- The APB view as one view of the state, whether the access is locked out or not (R51). -/
theorem dscrApb_eq_dscrView (s : State) (p31 : Bool) (d : Word) :
    dscrApb s p31 d =
      dscrView s (if s.locked = true ∧ p31 = false then s.dscr.rxfullL else s.dscr.rxfull)
        (if s.locked = true ∧ p31 = false then s.dscr.txfullL else s.dscr.txfull) (shownInstrcompl s d) := by
  have hlock : s.lockedOut p31 = true ↔ s.locked = true ∧ p31 = false := by simp [State.lockedOut]
  unfold dscrApb
  by_cases h : s.locked = true ∧ p31 = false
  · simp only [if_pos (hlock.2 h), if_pos h]
  · simp only [if_neg (mt hlock.1 h), if_neg h]

/-- A bit that shows `b` in every view of the state shows it to the CP14 read and to the debugger's read. -/
theorem both_views_show {s : State} {k : Nat} {b : Bool}
    (h : ∀ b27 b26 b24, (dscrView s b27 b26 b24).getLsbD k = b) (p31 : Bool) (d : Word) :
    (dscrCp14 s d).getLsbD k = b ∧ (dscrApb s p31 d).getLsbD k = b := by
  obtain ⟨b27, b26, hview, -⟩ := dscrCp14_eq_dscrView s d
  exact ⟨hview ▸ h _ _ _, dscrApb_eq_dscrView s p31 d ▸ h _ _ _⟩

/-- Settles O21: both views are `dscrView` of the same state and draw, and differ only in what they pass for
bits 27 and 26. -/
theorem apbReadViewBits : Obligations.ApbReadViewBits := by
  intro s p31 d k
  obtain ⟨b27, b26, hcp14, -⟩ := dscrCp14_eq_dscrView s d
  rw [dscrApb_eq_dscrView, hcp14]
  by_cases h27 : k = 27
  · subst h27
    rw [dscrView_bit27, if_pos rfl]
  · by_cases h26 : k = 26
    · subst h26
      rw [dscrView_bit26, if_neg h27, if_pos rfl]
    · rw [if_neg h27, if_neg h26]
      exact dscrView_bit_of_ne h27 h26 ..

end Sys2Proof.Machine
end

section
/-! SUPPORT. The control bits `intdis` and `dbgack` (10_state.md R26, R27): what they do to the interrupt inputs and
to DBGACK, and who writes them. -/

namespace Sys2Proof.Machine

/-! ### The inputs and the output they gate (R155, R176) -/

/-- `intdis` set hides both interrupt inputs. -/
theorem interrupts_hidden {s : State} (h : s.dscr.intdis = true) : s.irqSeen = false ∧ s.fiqSeen = false := by
  simp [State.irqSeen, State.fiqSeen, h]

/-- `intdis` clear lets both interrupt inputs through. -/
theorem interrupts_shown {s : State} (h : s.dscr.intdis = false) : s.irqSeen = s.irq ∧ s.fiqSeen = s.fiq := by
  simp [State.irqSeen, State.fiqSeen, h]

/-- `dbgack` set forces DBGACK HIGH. -/
theorem dbgackOut_forced {s : State} (h : s.dscr.dbgack = true) : s.dbgackOut = true := by
  simp [State.dbgackOut, h]

/-- `dbgack` clear leaves DBGACK to the core. -/
theorem dbgackOut_of_core {s : State} (h : s.dscr.dbgack = false) : s.dbgackOut = s.coreDbgack := by
  simp [State.dbgackOut, h]

/-! ### Their writers -/

/-- An accepted write stores both bits, whatever the set of open bits (R52). -/
theorem dscrWrite_intdis_dbgack {o : Word} {f g : DscrState} {d : Word} (h : dscrWrite o f d = .ok g) :
    g.intdis = d.getLsbD 11 ∧ g.dbgack = d.getLsbD 10 := by
  obtain ⟨-, rfl⟩ := (dscrWrite_ok o f g d).1 h
  exact ⟨rfl, rfl⟩

/-- Settles O22: the gates, the accepted write, both views and the two reset states, each by its own lemma. -/
theorem intDisAndDbgAck : Obligations.IntDisAndDbgAck := by
  refine ⟨fun s => ⟨interrupts_hidden, interrupts_shown, dbgackOut_forced, dbgackOut_of_core⟩,
    fun _ _ _ _ => dscrWrite_intdis_dbgack, fun s p31 d => ?_, fun _ => ⟨rfl, rfl⟩, rfl, rfl⟩
  obtain ⟨hcp14I, hapbI⟩ := both_views_show (dscrView_intdis s) p31 d
  obtain ⟨hcp14A, hapbA⟩ := both_views_show (dscrView_dbgack s) p31 d
  exact ⟨hcp14I, hcp14A, hapbI, hapbA⟩

end Sys2Proof.Machine
end

section
/-! SUPPORT. Who moves bits 1 and 0 of DBGDSCR (10_state.md R32, R33): everything an instruction, a debugger access,
an event and a whole step can make of them. `DscrStep` does not name the event behind a change, so the list is made
here again for these two bits, with the event. -/

namespace Sys2Proof.Machine

/-- Bits 1 and 0 are the same in both records. -/
def DscrState.SameRunState (f g : DscrState) : Prop :=
  g.restarted = f.restarted ∧ g.halted = f.halted

/-- From `f` to `g` debug state is entered: bit 0 is set and bit 1 kept (42_hardware_events.md R143). -/
def DscrState.EntersDebugState (f g : DscrState) : Prop :=
  g.restarted = f.restarted ∧ g.halted = true

/-- What the four kinds of event that may move bits 1 and 0 make of them. -/
inductive RunStateMove (f g : DscrState) : Event → Prop
  | entered (k : DebugKind) (h : f.EntersDebugState g) : RunStateMove f g (.debugEvent k)
  | exitBegun (hf : f.halted = true) (hr : g.restarted = false) (hh : g.halted = true) :
      RunStateMove f g .beginExit
  | exitCompleted (hr : g.restarted = true) (hh : g.halted = false) : RunStateMove f g .completeExit
  | processorReset (hr : g.restarted = true) (hh : g.halted = false) : RunStateMove f g .processorReset

/-! ### Instructions and writes of DBGDSCR -/

/-- A write of DBGDSCR, from either interface, ignores bits 1 and 0 (R52). -/
theorem dscrWrite_keeps_runState {o : Word} {f g : DscrState} {d : Word} (h : dscrWrite o f d = .ok g) :
    f.SameRunState g := by
  obtain ⟨-, rfl⟩ := (dscrWrite_ok o f g d).1 h
  exact ⟨rfl, rfl⟩

/-- The template of both instructions moves nothing that its transfer does not move: the rest of it is retirement
and the trap (40_cp14_access.md R80). -/
theorem runCp14_keeps_runState {k : AccessKind} {c : Cond} {r : Rd} {f : Fin 15 → State → Except Refusal State}
    {s t : State} (hf : ∀ i u, f i s = .ok u → s.dscr.SameRunState u.dscr) (h : runCp14 k c r f s = .next t) :
    s.dscr.SameRunState t.dscr := by
  obtain ⟨-, ⟨-, rfl⟩ | ⟨-, i, -, -, u, hu, rfl⟩ | ⟨-, i, -, -, rfl⟩⟩ := runCp14_next h
  · exact ⟨rfl, rfl⟩
  · exact hf i u hu
  · exact ⟨rfl, rfl⟩

theorem exec_keeps_runState {i : Instr} {s t : State} (h : exec i s = .next t) : s.dscr.SameRunState t.dscr := by
  cases i with
  | mrcDbgdscr c r =>
    rw [exec_mrcDbgdscr] at h
    refine runCp14_keeps_runState (fun i u hu => ?_) h
    cases hu
    exact ⟨rfl, rfl⟩
  | mcrDbgdscr c r =>
    rw [exec_mcrDbgdscr] at h
    refine runCp14_keeps_runState (fun i u hu => ?_) h
    obtain ⟨-, rfl⟩ := (mcrTransfer_ok i s u).1 hu
    exact ⟨rfl, rfl⟩

theorem procTurn_keeps_runState {s t : State} (h : procTurn s = .next t) : s.dscr.SameRunState t.dscr := by
  obtain rfl | ⟨i, hi⟩ := procTurn_next h
  · exact ⟨rfl, rfl⟩
  · exact exec_keeps_runState hi

/-! ### Events -/

/-- A debug event enters debug state or, as a debug exception, leaves both bits alone (R146, R147). -/
theorem debugEvent_runState {k : DebugKind} {s t : State} (h : debugEvent k s = .ok t) :
    s.dscr.SameRunState t.dscr ∨ s.dscr.EntersDebugState t.dscr := by
  obtain ⟨-, code, -, ⟨-, rfl⟩ | ⟨-, a, -, rfl⟩⟩ := debugEvent_ok h
  · exact .inr ⟨rfl, rfl⟩
  · exact .inl ⟨rfl, rfl⟩

theorem beginExit_runState {s t : State} (h : beginExit s = .ok t) :
    t.dscr.restarted = false ∧ t.dscr.halted = true := by
  obtain ⟨hh, rfl⟩ := beginExit_ok h
  exact ⟨rfl, hh⟩

theorem completeExit_runState {s t : State} (h : completeExit s = .ok t) :
    t.dscr.restarted = true ∧ t.dscr.halted = false := by
  obtain ⟨-, -, -, rfl⟩ := completeExit_ok h
  exact ⟨rfl, rfl⟩

theorem processorReset_runState {s t : State} (h : processorReset s = .ok t) :
    t.dscr.restarted = true ∧ t.dscr.halted = false := by
  obtain ⟨-, rfl⟩ := processorReset_ok h
  exact ⟨rfl, rfl⟩

/-- Everything an event can make of bits 1 and 0; a debug reset does not assign them (70_reset_and_hazards.md R191). -/
theorem eventStep_runState {e : Event} {s t : State} (h : eventStep e s = .ok t) :
    s.dscr.SameRunState t.dscr ∨ RunStateMove s.dscr t.dscr e := by
  cases e with
  | debugEvent k => exact (debugEvent_runState h).imp id (.entered k)
  | beginExit =>
    obtain ⟨hr, hh⟩ := beginExit_runState h
    exact .inr (.exitBegun (beginExit_ok h).1 hr hh)
  | completeExit =>
    obtain ⟨hr, hh⟩ := completeExit_runState h
    exact .inr (.exitCompleted hr hh)
  | processorReset =>
    obtain ⟨hr, hh⟩ := processorReset_runState h
    exact .inr (.processorReset hr hh)
  | procReadDtrrx rd =>
    obtain ⟨-, ⟨-, rfl⟩ | ⟨-, rfl⟩⟩ := procReadDtrrx_ok h <;> exact .inl ⟨rfl, rfl⟩
  | procWriteDtrtx v =>
    obtain ⟨-, ⟨-, rfl⟩ | ⟨-, rfl⟩⟩ := procWriteDtrtx_ok h <;> exact .inl ⟨rfl, rfl⟩
  | issueComplete =>
    obtain ⟨-, -, ⟨-, rfl⟩ | ⟨-, rfl⟩⟩ := issueComplete_ok h <;> exact .inl ⟨rfl, rfl⟩
  | undefInDebugState =>
    simp only [eventStep, undefInDebugState] at h
    split at h <;> cases h
    exact .inl ⟨rfl, rfl⟩
  | syncAbortInDebugState =>
    simp only [eventStep, syncAbortInDebugState] at h
    split at h <;> cases h
    exact .inl ⟨rfl, rfl⟩
  | asyncAbort ends =>
    simp only [eventStep, State.asyncAbort] at h
    split at h
    · split at h <;> cases h <;> exact .inl ⟨rfl, rfl⟩
    · cases h
      exact .inl ⟨rfl, rfl⟩
  | retire | debugReset | setDbgen b | setLocked b | setIrq b | setFiq b | setCoreDbgack b | setUser b
    | setConds c | outsideProcessor x pc user | outsideStore a b =>
    cases h
    exact .inl ⟨rfl, rfl⟩

/-! ### The debugger's accesses -/

/-- A completed access leaves bits 1 and 0 alone, but for a write of DBGDRCR whose bit 0 raises a debug event
(41_dtr_access_mode.md R118). -/
theorem accessDone_runState {a : ApbAccess} {s t : State} (h : AccessDone s a t) :
    s.dscr.SameRunState t.dscr ∨
      ∃ d p31, a = .writeDrcr d p31 ∧ d.getLsbD 0 = true ∧ s.dscr.EntersDebugState t.dscr := by
  cases h with
  | read p31 =>
    left
    simp only [State.drawn_dscr, State.latchForRead]
    split <;> exact ⟨rfl, rfl⟩
  | clearedAndEvent d p31 t hb he =>
    exact (debugEvent_runState he).imp id fun hin => ⟨d, p31, rfl, hb, hin⟩
  | written | ignoredDtrrx | filled | filledFast | ignoredDtrtx | emptied | emptiedFast | ignoredItr | issued
    | loaded | cleared => exact .inl ⟨rfl, rfl⟩

theorem dbgTurn_runState {s t : State} (h : dbgTurn s = .next t) :
    s.dscr.SameRunState t.dscr ∨
      ∃ d p31 q, s.dbgQueue = .writeDrcr d p31 :: q ∧ t.dbgQueue = q ∧ d.getLsbD 0 = true ∧
        s.dscr.EntersDebugState t.dscr := by
  obtain ⟨-, rfl⟩ | ⟨a, q, hq, ⟨-, rfl⟩ | ⟨u, r, hu, rfl⟩⟩ := dbgTurn_next h
  · exact .inl ⟨rfl, rfl⟩
  · exact .inl ⟨rfl, rfl⟩
  · obtain hsame | ⟨d, p31, rfl, hb, hin⟩ := accessDone_runState hu
    · exact .inl hsame
    · exact .inr ⟨d, p31, q, hq, rfl, hb, hin⟩

/-! ### Whole steps -/

/-- A step that the schedule gives to an event is that event. -/
theorem eventStep_of_step {s t : State} {e : Event} {rest : List Turn} (hn : s.Next (.event e) rest)
    (h : step s = .next t) : eventStep e { s with sched := rest } = .ok t := by
  rw [step_of_next_event hn, eventTurn] at h
  cases he : eventStep e { s with sched := rest } with
  | ok u =>
    rw [he] at h
    cases h
    rfl
  | error r =>
    rw [he] at h
    cases h

/-- Everything a step can make of bits 1 and 0: nothing, the entry that a write of DBGDRCR raises, or the move of
the event that the schedule names. -/
theorem step_runState {s t : State} (h : step s = .next t) :
    s.dscr.SameRunState t.dscr ∨
      (∃ d p31 q rest, s.Accesses (.writeDrcr d p31) q rest ∧ t.dbgQueue = q ∧ d.getLsbD 0 = true ∧
        s.dscr.EntersDebugState t.dscr) ∨
      ∃ e, s.sched.head? = some (.event e) ∧ RunStateMove s.dscr t.dscr e := by
  obtain ⟨-, h⟩ | ⟨rest, ⟨-, h⟩ | ⟨hs, h⟩ | ⟨e, hs, h⟩⟩ := step_next h
  · exact .inl (procTurn_keeps_runState h)
  · have hsame := procTurn_keeps_runState h
    exact .inl hsame
  · obtain hsame | ⟨d, p31, q, hq, ht, hb, hin⟩ := dbgTurn_runState h
    · exact .inl hsame
    · exact .inr (.inl ⟨d, p31, q, rest, ⟨hs, hq⟩, ht, hb, hin⟩)
  · obtain hsame | hmove := eventStep_runState h
    · exact .inl hsame
    · exact .inr (.inr ⟨e, by rw [hs, List.head?_cons], hmove⟩)

/-- Bit 1 falls only at the start of an exit (R32). -/
theorem restarted_falls_only_at_beginExit {s t : State} (h : step s = .next t) (hs : s.dscr.restarted = true)
    (ht : t.dscr.restarted = false) : s.sched.head? = some (.event .beginExit) := by
  obtain ⟨hr, -⟩ | ⟨_, _, _, _, -, -, -, hr, -⟩ | ⟨e, he, hmove⟩ := step_runState h
  · simp [hr, hs] at ht
  · simp [hr, hs] at ht
  · cases hmove with
    | entered k hin => simp [hin.1, hs] at ht
    | exitBegun => exact he
    | exitCompleted hr | processorReset hr => simp [hr] at ht

/-- Bit 1 rises only at the completion of an exit or at a processor reset (R32). -/
theorem restarted_rises_only_at_exit_or_reset {s t : State} (h : step s = .next t)
    (hs : s.dscr.restarted = false) (ht : t.dscr.restarted = true) :
    s.sched.head? = some (.event .completeExit) ∨ s.sched.head? = some (.event .processorReset) := by
  obtain ⟨hr, -⟩ | ⟨_, _, _, _, -, -, -, hr, -⟩ | ⟨e, he, hmove⟩ := step_runState h
  · simp [hr, hs] at ht
  · simp [hr, hs] at ht
  · cases hmove with
    | entered k hin => simp [hin.1, hs] at ht
    | exitBegun _ hr => simp [hr] at ht
    | exitCompleted => exact .inl he
    | processorReset => exact .inr he

/-- Bit 0 rises only at a debug event, the schedule's or one raised through DBGDRCR (R33). -/
theorem halted_rises_only_at_debugEvent {s t : State} (h : step s = .next t) (hs : s.dscr.halted = false)
    (ht : t.dscr.halted = true) :
    (∃ k, s.sched.head? = some (.event (.debugEvent k))) ∨
      ∃ d p31 q rest, s.Accesses (.writeDrcr d p31) q rest ∧ t.dbgQueue = q ∧ d.getLsbD 0 = true := by
  obtain ⟨-, hh⟩ | ⟨d, p31, q, rest, ha, hq, hb, -⟩ | ⟨e, he, hmove⟩ := step_runState h
  · simp [hh, hs] at ht
  · exact .inr ⟨d, p31, q, rest, ha, hq, hb⟩
  · cases hmove with
    | entered k => exact .inl ⟨k, he⟩
    | exitBegun hf => simp [hf] at hs
    | exitCompleted _ hh | processorReset _ hh => simp [hh] at ht

/-- Bit 0 falls only at the completion of an exit or at a processor reset (R33). -/
theorem halted_falls_only_at_exit_or_reset {s t : State} (h : step s = .next t) (hs : s.dscr.halted = true)
    (ht : t.dscr.halted = false) :
    s.sched.head? = some (.event .completeExit) ∨ s.sched.head? = some (.event .processorReset) := by
  obtain ⟨-, hh⟩ | ⟨_, _, _, _, -, -, -, -, hh⟩ | ⟨e, he, hmove⟩ := step_runState h
  · simp [hh, hs] at ht
  · simp [hh] at ht
  · cases hmove with
    | entered k hin => simp [hin.2] at ht
    | exitBegun _ _ hh => simp [hh] at ht
    | exitCompleted => exact .inl he
    | processorReset => exact .inr he

/-- Settles O27: the four movers from `step_runState`, the effect of each event from its own lemma, the instructions,
writes, entry, views and reset after it. -/
theorem runStateBitsMoveOnlyByTheirEvents : Obligations.RunStateBitsMoveOnlyByTheirEvents := by
  refine ⟨fun s t h => ⟨restarted_falls_only_at_beginExit h, restarted_rises_only_at_exit_or_reset h,
      halted_rises_only_at_debugEvent h, halted_falls_only_at_exit_or_reset h⟩,
    fun s t rest hn h => beginExit_runState (eventStep_of_step hn h), ?exit,
    fun i s t => exec_keeps_runState, fun o f g d => dscrWrite_keeps_runState, fun s code => ⟨rfl, rfl⟩, ?views,
    rfl, rfl⟩
  case exit =>
    rintro s t e rest (rfl | rfl) hn h
    · exact completeExit_runState (eventStep_of_step hn h)
    · exact processorReset_runState (eventStep_of_step hn h)
  case views =>
    intro s p31 d
    obtain ⟨hcp14R, hapbR⟩ := both_views_show (dscrView_restarted s) p31 d
    obtain ⟨hcp14H, hapbH⟩ := both_views_show (dscrView_halted s) p31 d
    exact ⟨hcp14R, hcp14H, hapbR, hapbH⟩

end Sys2Proof.Machine
end

section
/-! SUPPORT. A debugger access that the lock lets through and the step that answers it (41_dtr_access_mode.md R120),
and the read of DBGDTRTX in Non-blocking mode (R104). -/

namespace Sys2Proof.Machine

/-! ### Any access -/

/-- The lock lets an access through when it is not set or the access has PADDRDBG31 set (R120). -/
theorem lockedOut_eq_false_iff (s : State) (p31 : Bool) :
    s.lockedOut p31 = false ↔ s.locked = false ∨ p31 = true := by
  rw [State.lockedOut, Bool.and_eq_false_iff, Bool.not_eq_false']

/-- Past the lock, the access itself decides. -/
theorem unlessLocked_of_open {s : State} {p31 : Bool} (h : s.locked = false ∨ p31 = true)
    (access : State → ApbOutcome) : unlessLocked p31 s access = access s := by
  rw [unlessLocked, (lockedOut_eq_false_iff s p31).2 h]
  rfl

/-- A debugger's step whose access is completed or ignored is answered. The access starts from the state whose
schedule has moved on, so what it leaves has that schedule too. -/
theorem step_of_completed_access {s t : State} {a : ApbAccess} {q : List ApbAccess} {rest : List Turn} {r : ApbReply}
    (h : s.Accesses a q rest)
    (ha : apbAccess a { s with sched := rest } = .done { t with sched := rest } r ∨
      apbAccess a { s with sched := rest } = .ignored { t with sched := rest } r) :
    step s = .next (t.answered q rest r) := by
  rw [step_of_accesses h]
  rcases ha with ha | ha
  · rw [ha]; rfl
  · rw [ha]; rfl

/-! ### The read of DBGDTRTX in Non-blocking mode (R104) -/

theorem dtrModeOf_nonBlocking {f : BitVec 2} (h : f = 0b00#2) : dtrModeOf f = .nonBlocking := if_pos h

/-- In Non-blocking mode the latch alone decides whether the read completes or is ignored. -/
theorem apbReadDtrtx_nonBlocking {s : State} (h : s.dscr.dtrAccess = 0b00#2) :
    apbReadDtrtx s =
      if s.dscr.txfullL then .done s.emptyDtrtx (.value s.dtrtx) else .ignored (s.drawn 1) (.value s.draw) := by
  rw [apbReadDtrtx, dtrModeOf_nonBlocking h]

/-- Settles O36: the access past the lock is the Non-blocking read, whose latch chooses between the ignored read and
the one that empties DBGDTRTX. -/
theorem nonBlockingDtrtxRead : Obligations.NonBlockingDtrtxRead := by
  intro s p31 q rest h hopen hmode
  have haccess : apbAccess (.readDtrtx p31) { s with sched := rest } =
      if s.dscr.txfullL then .done { s.emptyDtrtx with sched := rest } (.value s.dtrtx)
      else .ignored { s.drawn 1 with sched := rest } (.value s.draw) :=
    (unlessLocked_of_open (s := { s with sched := rest }) hopen apbReadDtrtx).trans (apbReadDtrtx_nonBlocking hmode)
  refine ⟨fun hclear => ?ignored, fun hset => ?read⟩
  case ignored =>
    exact step_of_completed_access (t := s.drawn 1) h (.inr (by rw [haccess, hclear]; rfl))
  case read =>
    exact step_of_completed_access (t := s.emptyDtrtx) h (.inl (by rw [haccess, hset]; rfl))

end Sys2Proof.Machine
end

section
/-! SUPPORT. The two pins that gate what the debugger sees (42_hardware_events.md R153, R156): DBGEN, which masks the
enables, and the locked bit, which steers the accesses with PADDRDBG31 = 0. -/

namespace Sys2Proof.Machine

/-- The step that the schedule gives to an event takes what the event answers. -/
theorem step_of_eventStep {s t : State} {e : Event} {rest : List Turn} (hn : s.Next (.event e) rest)
    (he : eventStep e { s with sched := rest } = .ok t) : step s = .next t := by
  rw [step_of_next_event hn, eventTurn, he]

/-! ### DBGEN and the enables (R21 to R23, R153) -/

/-- Bit 15 of a view is the effective enable, not the programmed one (R21). -/
theorem dscrView_monEn (s : State) (b27 b26 b24 : Bool) : (dscrView s b27 b26 b24).getLsbD 15 = s.monEn := by
  rw [getLsbD_dscrView]
  simp

/-- Bit 14 of a view is the effective enable, not the programmed one (R22). -/
theorem dscrView_haltEn (s : State) (b27 b26 b24 : Bool) : (dscrView s b27 b26 b24).getLsbD 14 = s.haltEn := by
  rw [getLsbD_dscrView]
  simp

/-- The debug-mode in terms of DBGEN and the programmed enables (R21 to R23). -/
theorem debugMode_eq (s : State) :
    s.debugMode = if s.dbgen && s.dscr.haltProg then .halting
      else if s.dbgen && s.dscr.monProg then .monitor else .noDebugMode := rfl

/-- Settles O53: the event moves the pin alone, and the views and the debug-mode go through `monEn` and `haltEn`,
which read the pin of the state they are asked in. -/
theorem dbgenMasksTheEnables : Obligations.DbgenMasksTheEnables := by
  intro s b rest hn
  refine ⟨{ s with dbgen := b, sched := rest }, step_of_eventStep hn rfl, rfl, fun d p31 => ?views, debugMode_eq _⟩
  case views =>
    obtain ⟨hcp14M, hapbM⟩ := both_views_show (dscrView_monEn { s with dbgen := b, sched := rest }) p31 d
    obtain ⟨hcp14H, hapbH⟩ := both_views_show (dscrView_haltEn { s with dbgen := b, sched := rest }) p31 d
    exact ⟨hcp14M, hcp14H, hapbM, hapbH⟩

/-! ### The locked bit and the accesses with PADDRDBG31 = 0 (R101, R120, R156) -/

/-- Such a read latches unless the locked bit is set and `LOCKED_READ_LATCHES` is not (R101, D9). -/
theorem latchForRead_dscr (s : State) :
    (s.latchForRead false).dscr = if s.locked && !s.cfg.lockedReadLatches then s.dscr else s.dscr.latch := by
  rw [State.latchForRead, State.lockedOut]
  cases s.locked with
  | false => rfl
  | true => cases s.cfg.lockedReadLatches <;> rfl

/-- While the locked bit is set, the lock answers before the access (R120, D10). -/
theorem unlessLocked_of_locked {s : State} (h : s.locked = true) (access : State → ApbOutcome) :
    unlessLocked false s access = .refuse .lockedAccess := by
  rw [unlessLocked, State.lockedOut, h]
  rfl

/-- Every access but the read of DBGDSCR is refused while the locked bit is set (R120, D10). -/
theorem apbAccess_of_locked {s : State} (h : s.locked = true) (d : Word) :
    ∀ a ∈ [ApbAccess.writeDscr d false, .writeDtrrx d false, .readDtrtx false, .writeItr d false,
      .writeDrcr d false], apbAccess a s = .refuse .lockedAccess := by
  simp only [List.forall_mem_cons]
  exact ⟨unlessLocked_of_locked h _, unlessLocked_of_locked h _, unlessLocked_of_locked h _,
    unlessLocked_of_locked h _, unlessLocked_of_locked h _, List.forall_mem_nil _⟩

/-- Bits 27 and 26 of the view of such a read: the latches while the locked bit is set, else the live flags (R51). -/
theorem dscrApb_flags (s : State) (d : Word) :
    (dscrApb s false d).getLsbD 27 = (if s.locked then s.dscr.rxfullL else s.dscr.rxfull) ∧
      (dscrApb s false d).getLsbD 26 = (if s.locked then s.dscr.txfullL else s.dscr.txfull) := by
  rw [dscrApb_eq_dscrView, dscrView_bit27, dscrView_bit26]
  simp only [and_true, and_self]

/-- Settles O54: the event moves the locked bit alone, and view, latching and refusal ask it of the state the access
finds. -/
theorem lockedBitChangesOnlyAccesses : Obligations.LockedBitChangesOnlyAccesses := by
  intro s b rest hn
  exact ⟨{ s with locked := b, sched := rest }, step_of_eventStep hn rfl, rfl, dscrApb_flags _, latchForRead_dscr _,
    fun d hb => apbAccess_of_locked hb d⟩

end Sys2Proof.Machine
end

section
/-! SUPPORT. The codec, both ways (30_encoding.md section 3): what the decoder answers for an encoded instruction, and
what a decoded word was made of. -/

namespace Sys2Proof

/-- An instruction is well-formed when its condition is not the one that selects other instructions (R75). -/
theorem Instr.wf_iff (i : Instr) : i.wf = true ↔ i.cond ≠ 0b1111#4 := by
  cases i <;> exact bne_iff_ne

/-! ### What the decoder answers (R72, R75, R76) -/

theorem decodeWord_of_mrcMatch {w : Word} (hc : condField w ≠ 0b1111#4) (hm : w &&& rowMask = mrcMatch) :
    decodeWord w = .ok (.mrcDbgdscr (condField w) (rdOfNumber (rdField w))) := by
  rw [decodeWord, if_neg hc, if_pos hm]

theorem decodeWord_of_mcrMatch {w : Word} (hc : condField w ≠ 0b1111#4) (hm : w &&& rowMask = mcrMatch) :
    decodeWord w = .ok (.mcrDbgdscr (condField w) (rdOfNumber (rdField w))) := by
  have hne : w &&& rowMask ≠ mrcMatch := by rw [hm]; decide
  rw [decodeWord, if_neg hc, if_neg hne, if_pos hm]

/-- Everything the decoder can answer an instruction for. -/
theorem decodeWord_ok {w : Word} {i : Instr} (h : decodeWord w = .ok i) :
    condField w ≠ 0b1111#4 ∧
      ((w &&& rowMask = mrcMatch ∧ i = .mrcDbgdscr (condField w) (rdOfNumber (rdField w))) ∨
        (w &&& rowMask = mcrMatch ∧ i = .mcrDbgdscr (condField w) (rdOfNumber (rdField w)))) := by
  unfold decodeWord at h
  split at h
  · cases h
  · rename_i hc
    refine ⟨hc, ?_⟩
    split at h
    · rename_i hm
      exact .inl ⟨hm, (Except.ok.inj h).symm⟩
    · split at h
      · rename_i hm
        exact .inr ⟨hm, (Except.ok.inj h).symm⟩
      · cases h

/-! ### Decoding what was encoded -/

theorem decodeWord_encode {i : Instr} (h : i.wf = true) : decodeWord (encode i) = .ok i := by
  rw [Instr.wf_iff] at h
  cases i with
  | mrcDbgdscr c r =>
    obtain ⟨hc, hm⟩ := Laws.EncodesItsRow.mrcDbgdscr c r
    have hr : rdField (encode (.mrcDbgdscr c r)) = numberOfRd r := rdField_encodeRow _ _ _ (by decide)
    rw [decodeWord_of_mrcMatch (hc ▸ h) hm, hc, hr, rdOfNumber_numberOfRd]
    rfl
  | mcrDbgdscr c r =>
    obtain ⟨hc, hm⟩ := Laws.EncodesItsRow.mcrDbgdscr c r
    have hr : rdField (encode (.mcrDbgdscr c r)) = numberOfRd r := rdField_encodeRow _ _ _ (by decide)
    rw [decodeWord_of_mcrMatch (hc ▸ h) hm, hc, hr, rdOfNumber_numberOfRd]
    rfl

/-- Settles O1: the bytes are put together to the word again, and the row's three fields are read back from it. -/
theorem decodeUndoesEncode : Obligations.DecodeUndoesEncode := by
  intro e i rest h
  rw [encodeBytes, decode_bytesOfWord, decodeWord_encode h]

/-! ### Encoding what was decoded -/

/-- The bits that the rows fix, all but 31:28 and 15:12. -/
theorem getLsbD_rowMask (j : Fin 32) :
    rowMask.getLsbD j.val = !(decide (28 ≤ j.val) || decide (12 ≤ j.val) && decide (j.val < 16)) := by
  revert j; decide

/-- A word is its fixed bits, its condition field and its register field, with nothing left over. -/
theorem word_eq_row_or_fields (w : Word) :
    w &&& rowMask ||| ((condField w).zeroExtend 32 <<< 28) ||| ((rdField w).zeroExtend 32 <<< 12) = w := by
  apply BitVec.eq_of_getLsbD_eq
  intro j hj
  simp only [BitVec.getLsbD_or, BitVec.getLsbD_and, BitVec.getLsbD_shiftLeft, BitVec.truncate_eq_setWidth,
    BitVec.getLsbD_setWidth, condField, rdField, BitVec.getLsbD_extractLsb', getLsbD_rowMask ⟨j, hj⟩, hj]
  by_cases hcond : 28 ≤ j
  · simp [hcond, show ¬ j < 28 by omega, show j - 28 < 32 by omega, show j - 28 < 4 by omega,
      show 28 + (j - 28) = j by omega, show ¬ j - 12 < 4 by omega]
  · by_cases hrd : 12 ≤ j ∧ j < 16
    · simp [hrd, show ¬ 28 ≤ j by omega, show j < 28 by omega, show ¬ j < 12 by omega, show j - 12 < 32 by omega,
        show j - 12 < 4 by omega, show 12 + (j - 12) = j by omega]
    · have hfixed : (decide (12 ≤ j) && decide (j < 16)) = false := by simpa using hrd
      have hfield : 12 ≤ j → ¬ j - 12 < 4 := by omega
      simp +contextual [hcond, show j < 28 by omega, hfixed, hfield]

/-- Placing a word's own fields into its row gives the word. -/
theorem encodeRow_fields {w p : Word} (h : w &&& rowMask = p) :
    encodeRow p (condField w) (rdOfNumber (rdField w)) = w := by
  rw [encodeRow, numberOfRd_rdOfNumber, ← h, word_eq_row_or_fields]

/-- Settles O2: the word is its fixed bits and the two fields that the instruction's operands were read from. -/
theorem decodedWordEncodesBack : Obligations.DecodedWordEncodesBack := by
  intro w i h
  obtain ⟨hc, ⟨hm, rfl⟩ | ⟨hm, rfl⟩⟩ := decodeWord_ok h
  · exact ⟨(Instr.wf_iff _).2 hc, encodeRow_fields hm⟩
  · exact ⟨(Instr.wf_iff _).2 hc, encodeRow_fields hm⟩

/-- Settles O3: eight closed words, decoded by evaluation. -/
theorem specWordsDecode : Obligations.SpecWordsDecode := by
  unfold Obligations.SpecWordsDecode
  decide

end Sys2Proof
end

section
/-! SUPPORT. What a step leaves of the parameters, of memory and of the debugger's port, and the invariants of every
step: those of DBGDSCR are a case analysis of `step_dscr` each. -/

namespace Sys2Proof.Machine

/-! ### The parameters, memory and the port -/

/-- What no instruction and no event touches: the parameters (00_scope.md R8) and the debugger's port (R66, R119). -/
structure State.SamePort (s t : State) : Prop where
  cfg : t.cfg = s.cfg
  dbgQueue : t.dbgQueue = s.dbgQueue
  portHeld : t.portHeld = s.portHeld
  reply : t.reply = s.reply

/-- Memory as before, or with one byte placed at an address of 32 bits. -/
def State.StoresAtMostAByte (s t : State) : Prop :=
  t.mem = s.mem ∨ ∃ (a : Word) (b : Byte), t.mem = s.mem.write a.toNat b

/-- The template of both instructions leaves what its transfer leaves, but for the pc, retirement, the stage and the
trap (40_cp14_access.md R80). -/
theorem runCp14_frame {k : AccessKind} {c : Cond} {r : Rd} {f : Fin 15 → State → Except Refusal State} {s t : State}
    (hf : ∀ i u, f i s = .ok u → u = { s with x := u.x, dscr := u.dscr, draws := u.draws })
    (h : runCp14 k c r f s = .next t) :
    t = { s with
      x := t.x, pc := t.pc, dscr := t.dscr, issue := t.issue, handover := t.handover, draws := t.draws } := by
  obtain ⟨-, ⟨-, rfl⟩ | ⟨-, i, -, -, u, hu, rfl⟩ | ⟨-, i, -, -, rfl⟩⟩ := runCp14_next h
  · rfl
  · rw [hf i u hu]; rfl
  · rfl

/-- What an instruction leaves unchanged in every next state. -/
theorem exec_frame {i : Instr} {s t : State} (h : exec i s = .next t) :
    t = { s with
      x := t.x, pc := t.pc, dscr := t.dscr, issue := t.issue, handover := t.handover, draws := t.draws } := by
  cases i with
  | mrcDbgdscr c r =>
    rw [exec_mrcDbgdscr] at h
    exact runCp14_frame (fun i u hu => by cases hu; rfl) h
  | mcrDbgdscr c r =>
    rw [exec_mcrDbgdscr] at h
    exact runCp14_frame (fun i u hu => by rw [((mcrTransfer_ok i s u).1 hu).2]; rfl) h

theorem procTurn_samePort {s t : State} (h : procTurn s = .next t) : s.SamePort t ∧ t.mem = s.mem := by
  obtain rfl | ⟨i, hi⟩ := procTurn_next h
  · exact ⟨⟨rfl, rfl, rfl, rfl⟩, rfl⟩
  · rw [exec_frame hi]
    exact ⟨⟨rfl, rfl, rfl, rfl⟩, rfl⟩

theorem underReset_samePort (s : State) : s.SamePort s.underReset ∧ s.underReset.mem = s.mem := by
  unfold State.underReset
  split <;> exact ⟨⟨by simp, by simp, by simp, by simp⟩, by simp⟩

/-- An event leaves the parameters and the port alone, and memory too but for the input that stores a byte. -/
theorem eventStep_samePort {e : Event} {s t : State} (h : eventStep e s = .ok t) :
    s.SamePort t ∧ s.StoresAtMostAByte t := by
  cases e with
  | outsideStore a b =>
    cases h
    exact ⟨⟨rfl, rfl, rfl, rfl⟩, .inr ⟨a, b, rfl⟩⟩
  | procReadDtrrx rd =>
    obtain ⟨-, ⟨-, rfl⟩ | ⟨-, rfl⟩⟩ := procReadDtrrx_ok h <;> exact ⟨⟨rfl, rfl, rfl, rfl⟩, .inl rfl⟩
  | procWriteDtrtx v =>
    obtain ⟨-, ⟨-, rfl⟩ | ⟨-, rfl⟩⟩ := procWriteDtrtx_ok h <;> exact ⟨⟨rfl, rfl, rfl, rfl⟩, .inl rfl⟩
  | debugEvent k =>
    obtain ⟨-, code, -, ⟨-, rfl⟩ | ⟨-, a, -, rfl⟩⟩ := debugEvent_ok h <;> exact ⟨⟨rfl, rfl, rfl, rfl⟩, .inl rfl⟩
  | beginExit =>
    obtain ⟨-, rfl⟩ := beginExit_ok h
    exact ⟨⟨rfl, rfl, rfl, rfl⟩, .inl rfl⟩
  | completeExit =>
    obtain ⟨-, -, -, rfl⟩ := completeExit_ok h
    exact ⟨⟨rfl, rfl, rfl, rfl⟩, .inl rfl⟩
  | issueComplete =>
    obtain ⟨-, -, ⟨-, rfl⟩ | ⟨-, rfl⟩⟩ := issueComplete_ok h <;> exact ⟨⟨rfl, rfl, rfl, rfl⟩, .inl rfl⟩
  | undefInDebugState =>
    simp only [eventStep, undefInDebugState] at h
    split at h <;> cases h
    exact ⟨⟨rfl, rfl, rfl, rfl⟩, .inl rfl⟩
  | syncAbortInDebugState =>
    simp only [eventStep, syncAbortInDebugState] at h
    split at h <;> cases h
    exact ⟨⟨rfl, rfl, rfl, rfl⟩, .inl rfl⟩
  | asyncAbort ends =>
    simp only [eventStep, State.asyncAbort] at h
    split at h
    · split at h <;> cases h <;> exact ⟨⟨rfl, rfl, rfl, rfl⟩, .inl rfl⟩
    · cases h
      exact ⟨⟨rfl, rfl, rfl, rfl⟩, .inl rfl⟩
  | processorReset =>
    obtain ⟨-, rfl⟩ := processorReset_ok h
    obtain ⟨⟨hcfg, hqueue, hheld, hreply⟩, hmem⟩ := underReset_samePort s
    exact ⟨⟨hcfg, hqueue, hheld, hreply⟩, .inl hmem⟩
  | retire | debugReset | setDbgen b | setLocked b | setIrq b | setFiq b | setCoreDbgack b | setUser b
    | setConds c | outsideProcessor x pc user =>
    cases h
    exact ⟨⟨rfl, rfl, rfl, rfl⟩, .inl rfl⟩

/-- A completed access leaves the parameters and memory alone. -/
theorem accessDone_cfg_mem {a : ApbAccess} {s t : State} (h : AccessDone s a t) :
    t.cfg = s.cfg ∧ t.mem = s.mem := by
  cases h with
  | read p31 =>
    rw [State.drawn_cfg, State.drawn_mem, State.latchForRead]
    split <;> exact ⟨rfl, rfl⟩
  | clearedAndEvent d p31 t hb he =>
    obtain ⟨-, code, -, ⟨-, rfl⟩ | ⟨-, a, -, rfl⟩⟩ := debugEvent_ok he <;> exact ⟨rfl, rfl⟩
  | written | ignoredDtrrx | filled | filledFast | ignoredDtrtx | emptied | emptiedFast | ignoredItr | issued
    | loaded | cleared => exact ⟨rfl, rfl⟩

theorem dbgTurn_cfg_mem {s t : State} (h : dbgTurn s = .next t) : t.cfg = s.cfg ∧ t.mem = s.mem := by
  obtain ⟨-, rfl⟩ | ⟨a, q, -, ⟨-, rfl⟩ | ⟨u, r, hu, rfl⟩⟩ := dbgTurn_next h
  · exact ⟨rfl, rfl⟩
  · exact ⟨rfl, rfl⟩
  · obtain ⟨hcfg, hmem⟩ := accessDone_cfg_mem hu
    exact ⟨hcfg, hmem⟩

/-- A step that is not the debugger's leaves the port alone, and stores a byte at most. -/
theorem step_samePort {s t : State} (h : step s = .next t) (hd : s.sched.head? ≠ some .dbg) :
    s.SamePort t ∧ s.StoresAtMostAByte t := by
  obtain ⟨-, h⟩ | ⟨rest, ⟨-, h⟩ | ⟨hs, -⟩ | ⟨e, -, h⟩⟩ := step_next h
  · obtain ⟨hport, hmem⟩ := procTurn_samePort h
    exact ⟨hport, .inl hmem⟩
  · obtain ⟨hport, hmem⟩ := procTurn_samePort h
    exact ⟨⟨hport.cfg, hport.dbgQueue, hport.portHeld, hport.reply⟩, .inl hmem⟩
  · exact absurd (by rw [hs, List.head?_cons]) hd
  · obtain ⟨hport, hmem⟩ := eventStep_samePort h
    exact ⟨⟨hport.cfg, hport.dbgQueue, hport.portHeld, hport.reply⟩, hmem⟩

/-- A step that is the debugger's is its turn. -/
theorem dbgTurn_of_step {s t : State} (h : step s = .next t) (hd : s.sched.head? = some .dbg) :
    ∃ rest, s.sched = .dbg :: rest ∧ dbgTurn { s with sched := rest } = .next t := by
  obtain ⟨hs, -⟩ | ⟨rest, ⟨hs, -⟩ | ⟨hs, h⟩ | ⟨e, hs, -⟩⟩ := step_next h
  · simp [hs] at hd
  · simp [hs] at hd
  · exact ⟨rest, hs, h⟩
  · simp [hs] at hd

/-- What every step leaves of the parameters and of memory. -/
theorem step_cfg_mem {s t : State} (h : step s = .next t) : t.cfg = s.cfg ∧ s.StoresAtMostAByte t := by
  by_cases hd : s.sched.head? = some .dbg
  · obtain ⟨rest, -, h⟩ := dbgTurn_of_step h hd
    obtain ⟨hcfg, hmem⟩ := dbgTurn_cfg_mem h
    exact ⟨hcfg, .inl hmem⟩
  · obtain ⟨hport, hmem⟩ := step_samePort h hd
    exact ⟨hport.cfg, hmem⟩

/-- Settles O25, by the frame of every turn. -/
theorem stepKeepsTheParameters : Obligations.StepKeepsTheParameters :=
  fun _ _ h => (step_cfg_mem h).1

/-! ### The invariant -/

/-- The part of the invariant that is about DBGDSCR alone. -/
structure DscrState.Legal (f : DscrState) : Prop where
  mode : f.dtrAccess ≠ 0b11#2
  running : f.halted = true ∨ f.restarted = true
  itrEn : f.itrEn = true → f.halted = true

theorem State.Inv.legal {s : State} (h : s.Inv) : s.dscr.Legal := ⟨h.mode, h.running, h.itrEn⟩

/-- An accepted write stores a mode that is not reserved, and `itr_en` only in debug state (R52). -/
theorem dscrStored_legal {f : DscrState} {d : Word} (o : Word) (hf : f.Legal) (h : WriteAccepted f d) :
    (dscrStored o f d).Legal :=
  ⟨h.mode, hf.running, h.itrEn⟩

theorem DscrStep.legal {s : State} {f : DscrState} (h : DscrStep s f) (hs : s.dscr.Legal) : f.Legal := by
  cases h with
  | mcr d hd =>
    obtain ⟨hmode, hrun, hitr⟩ := dscrStored_legal (openCp14 s.cfg) hs hd
    exact ⟨hmode, hrun, hitr⟩
  | written d hd => exact dscrStored_legal _ hs hd
  | entered => exact ⟨hs.mode, .inl rfl, fun _ => rfl⟩
  | exiting hh => exact ⟨hs.mode, .inl hh, hs.itrEn⟩
  | exited hh hr hi => exact ⟨hs.mode, .inr rfl, fun h => by simp [hi] at h⟩
  | same | retired | trapped | latched | filled | filledFast | emptied | emptiedFast | issued | readDtrrx | wroteDtrtx
    | debugException | undef | syncAbort | asyncAbort | issueExcepted | issueRetired =>
    exact ⟨hs.mode, hs.running, hs.itrEn⟩

theorem DrcrStep.legal {s : State} {d : Word} {f : DscrState} (h : DrcrStep s d f) (hs : s.dscr.Legal) : f.Legal := by
  cases h with
  | cleared => exact ⟨hs.mode, hs.running, hs.itrEn⟩
  | clearedAndHalted => exact ⟨hs.mode, .inl rfl, fun _ => rfl⟩

theorem ResetStep.legal {f g : DscrState} {e : Event} (h : ResetStep f e g) (hf : f.Legal) : g.Legal := by
  cases h with
  | debugReset d => exact ⟨(by decide : (0b00#2 : BitVec 2) ≠ 0b11#2), hf.running, fun h => by cases h⟩
  | processorReset hi => exact ⟨hf.mode, .inr rfl, fun h => by simp [hi] at h⟩
  | bothResets d => exact ⟨(by decide : (0b00#2 : BitVec 2) ≠ 0b11#2), .inr rfl, fun h => by cases h⟩

theorem step_keeps_legal {s t : State} (hs : s.dscr.Legal) (h : step s = .next t) : t.dscr.Legal := by
  obtain hd | ⟨d, p31, q, rest, -, -, hd⟩ | ⟨e, -, hd⟩ := step_dscr h
  · exact hd.legal hs
  · exact hd.legal hs
  · exact hd.legal hs

theorem step_keeps_mem_wf {s t : State} (hs : s.mem.wf = true) (h : step s = .next t) : t.mem.wf = true := by
  obtain ⟨-, hmem | ⟨a, b, hmem⟩⟩ := step_cfg_mem h
  · rw [hmem]; exact hs
  · rw [hmem]; exact Memory.wf_write _ _ _ a.isLt hs

/-- What is held on the port is the debugger's next access, of a kind that can be held (R119). -/
def State.PortOk (s : State) : Prop := s.portHeld = true → ∃ a q, s.dbgQueue = a :: q ∧ a.mayHold = true

/-- The debugger's turn leaves the port held only by an access that it has just found to hold. -/
theorem dbgTurn_keeps_portOk {s t : State} (hs : s.PortOk) (h : dbgTurn s = .next t) : t.PortOk := by
  obtain ⟨-, rfl⟩ | ⟨a, q, hq, ⟨hhold, rfl⟩ | ⟨u, r, -, rfl⟩⟩ := dbgTurn_next h
  · exact hs
  · exact fun _ => ⟨a, q, hq, mayHold_of_hold hhold⟩
  · intro hheld
    cases hheld

theorem step_keeps_portOk {s t : State} (hs : s.PortOk) (h : step s = .next t) : t.PortOk := by
  by_cases hd : s.sched.head? = some .dbg
  · obtain ⟨rest, -, h⟩ := dbgTurn_of_step h hd
    exact dbgTurn_keeps_portOk (s := { s with sched := rest }) hs h
  · obtain ⟨hport, -⟩ := step_samePort h hd
    rw [State.PortOk, hport.portHeld, hport.dbgQueue]
    exact hs

/-- Settles O23: every field of the reset state is a literal. -/
theorem resetMeetsTheInvariant : Obligations.ResetMeetsTheInvariant :=
  ⟨rfl, by decide, by decide, by decide, by intro h; cases h⟩

/-- Settles O24, part by part: memory, DBGDSCR and the port. -/
theorem stepKeepsTheInvariant : Obligations.StepKeepsTheInvariant := by
  intro s t hs h
  obtain ⟨hmode, hrun, hitr⟩ := step_keeps_legal hs.legal h
  exact ⟨step_keeps_mem_wf hs.memory h, hmode, hrun, hitr, step_keeps_portOk hs.port h⟩

/-! ### The entry into debug state (42_hardware_events.md R143, R146) -/

/-- The codes of method of entry are those that the spec lists (R31). -/
theorem moeCode_listed {k : DebugKind} {code : BitVec 4} (h : moeCode k = some code) :
    code ∈ [0b0000#4, 0b0001#4, 0b0011#4, 0b0100#4, 0b1010#4] := by
  cases k <;> cases h <;> decide

/-- Settles O26: only an entry, scheduled or raised through DBGDRCR, sets bit 0, and it assigns five fields. -/
theorem debugStateIsEnteredOnlyFromHaltingMode : Obligations.DebugStateIsEnteredOnlyFromHaltingMode := by
  intro s t h hs ht
  obtain hd | ⟨d, p31, q, rest, -, -, hd⟩ | ⟨e, -, hd⟩ := step_dscr h
  · generalize t.dscr = g at hd ht ⊢
    cases hd with
    | entered k code hk hh hm =>
      exact ⟨hm, moeCode_listed hk, rfl, rfl, rfl, rfl, rfl, rfl, rfl, rfl, rfl, rfl, rfl, rfl, rfl, rfl, rfl⟩
    | exited => cases ht
    | _ => exact absurd (hs.symm.trans ht) Bool.false_ne_true
  · generalize t.dscr = g at hd ht ⊢
    cases hd with
    | cleared => exact absurd (hs.symm.trans ht) Bool.false_ne_true
    | clearedAndHalted hb hh hm =>
      exact ⟨hm, List.mem_cons_self, rfl, rfl, rfl, rfl, rfl, rfl, rfl, rfl, rfl, rfl, rfl, rfl, rfl, rfl, rfl⟩
  · generalize t.dscr = g at hd ht ⊢
    cases hd with
    | debugReset => exact absurd (hs.symm.trans ht) Bool.false_ne_true
    | processorReset | bothResets => cases ht

/-! ### The sticky bits, `pipeadv` and the full flag -/

/-- A write leaves an open bit as it was where the interface does not store it (R35). -/
theorem openBit_of_closed {o m : Word} {i : Nat} (h : o &&& m = 0#32) (hm : m.getLsbD i = true) (d : Word)
    (old : Bool) : openBit o d i old = old := by
  have ho : o.getLsbD i = false := by
    have := congrArg (fun v => v.getLsbD i) h
    simpa [hm] using this
  rw [openBit, ho]
  rfl

/-- A reset is the only event that `ResetStep` lists. -/
theorem ResetStep.resetNext {s : State} {f g : DscrState} {e : Event} (h : ResetStep f e g)
    (he : s.sched.head? = some (.event e)) : s.ResetNext := by
  cases h with
  | debugReset => exact .inl he
  | processorReset | bothResets => exact .inr he

/-- None of the three sticky bits rises from `f` to `g`. -/
def DscrState.NoStickyRise (f g : DscrState) : Prop :=
  (g.stickyUnd = true → f.stickyUnd = true) ∧ (g.stickyAabt = true → f.stickyAabt = true) ∧
    (g.stickySabt = true → f.stickySabt = true)

/-- A write by an interface that does not store the sticky bits leaves them alone. -/
theorem dscrStored_sticky {o : Word} (h : o &&& 0x000001C0#32 = 0#32) (f : DscrState) (d : Word) :
    (dscrStored o f d).stickyUnd = f.stickyUnd ∧ (dscrStored o f d).stickyAabt = f.stickyAabt ∧
      (dscrStored o f d).stickySabt = f.stickySabt :=
  ⟨openBit_of_closed h (by decide) _ _, openBit_of_closed h (by decide) _ _, openBit_of_closed h (by decide) _ _⟩

theorem DscrStep.noStickyRise {s : State} {g : DscrState} (h : DscrStep s g) (hc : s.Closed 0x000001C0#32)
    (hh : s.dscr.halted = false) : s.dscr.NoStickyRise g := by
  cases h with
  | mcr d =>
    obtain ⟨hund, haabt, hsabt⟩ := dscrStored_sticky hc.1 s.dscr d
    exact ⟨hund.symm.trans, haabt.symm.trans, hsabt.symm.trans⟩
  | written d =>
    obtain ⟨hund, haabt, hsabt⟩ := dscrStored_sticky hc.2 s.dscr d
    exact ⟨hund.symm.trans, haabt.symm.trans, hsabt.symm.trans⟩
  | trapped => exact ⟨fun h => by simpa [hh] using h, id, id⟩
  | undef h | syncAbort h | asyncAbort h => exact absurd (hh.symm.trans h) Bool.false_ne_true
  | _ => exact ⟨id, id, id⟩

/-- A write of DBGDRCR only clears sticky bits (41_dtr_access_mode.md R117). -/
theorem DrcrStep.noStickyRise {s : State} {d : Word} {g : DscrState} (h : DrcrStep s d g) :
    s.dscr.NoStickyRise g := by
  cases h <;> exact ⟨Bool.and_elim_left, Bool.and_elim_left, Bool.and_elim_left⟩

/-- Settles O28: outside debug state only a trap touches a sticky bit, and it adds `halted`, which is 0. -/
theorem stickyBitsRiseOnlyInDebugState : Obligations.StickyBitsRiseOnlyInDebugState := by
  intro s t hc h hr hh
  obtain hd | ⟨d, p31, q, rest, -, -, hd⟩ | ⟨e, he, hd⟩ := step_dscr h
  · exact hd.noStickyRise hc hh
  · exact hd.noStickyRise
  · exact absurd (hd.resetNext he) hr

/-- No step but the debugger's write of DBGDRCR and the resets clears `pipeadv`. -/
theorem DscrStep.keeps_pipeadv {s : State} {g : DscrState} (h : DscrStep s g) (hs : s.dscr.pipeadv = true) :
    g.pipeadv = true := by
  cases h with
  | retired | mcr | issueRetired => rfl
  | _ => exact hs

/-- A write of DBGDRCR that clears `pipeadv` has bit 3 set (R116). -/
theorem DrcrStep.bit3_of_pipeadv_cleared {s : State} {d : Word} {g : DscrState} (h : DrcrStep s d g)
    (hs : s.dscr.pipeadv = true) (hg : g.pipeadv = false) : d.getLsbD 3 = true := by
  have hclear : (s.dscr.pipeadv && !d.getLsbD 3) = false := by cases h <;> exact hg
  simpa [hs] using hclear

/-- Settles O29: of everything a step can do to DBGDSCR only the write of DBGDRCR is left, and it is answered. -/
theorem pipeAdvIsClearedOnlyByDrcr : Obligations.PipeAdvIsClearedOnlyByDrcr := by
  intro s t h hr hs ht
  obtain hd | ⟨d, p31, q, rest, ha, hq, hd⟩ | ⟨e, he, hd⟩ := step_dscr h
  · exact absurd (ht.symm.trans (hd.keeps_pipeadv hs)) Bool.false_ne_true
  · exact ⟨d, p31, q, rest, ha, hq, hd.bit3_of_pipeadv_cleared hs ht⟩
  · exact absurd (hd.resetNext he) hr

/-- `rxfull` set implies `rxfull_l` set (41_dtr_access_mode.md R103). -/
def DscrState.RxLatched (f : DscrState) : Prop := f.rxfull = true → f.rxfullL = true

/-- A write by an interface that stores neither bit leaves both alone. -/
theorem dscrStored_rx {o : Word} (h : o &&& 0x48000000#32 = 0#32) (f : DscrState) (d : Word) :
    (dscrStored o f d).rxfull = f.rxfull ∧ (dscrStored o f d).rxfullL = f.rxfullL :=
  ⟨openBit_of_closed h (by decide) _ _, openBit_of_closed h (by decide) _ _⟩

theorem dscrStored_rxLatched {o : Word} (h : o &&& 0x48000000#32 = 0#32) {f : DscrState} (d : Word)
    (hf : f.RxLatched) : (dscrStored o f d).RxLatched := by
  obtain ⟨hrx, hrxL⟩ := dscrStored_rx h f d
  rw [DscrState.RxLatched, hrx, hrxL]
  exact hf

theorem DscrStep.rxLatched {s : State} {g : DscrState} (h : DscrStep s g) (hc : s.Closed 0x48000000#32)
    (hs : s.dscr.RxLatched) : g.RxLatched := by
  cases h with
  | mcr d => exact dscrStored_rxLatched hc.1 d hs
  | written d => exact dscrStored_rxLatched hc.2 d hs
  | latched => exact id
  | filled | filledFast => exact fun _ => rfl
  | readDtrrx =>
    intro hrx
    cases hrx
  | _ => exact hs

theorem DrcrStep.rxLatched {s : State} {d : Word} {g : DscrState} (h : DrcrStep s d g) (hs : s.dscr.RxLatched) :
    g.RxLatched := by
  cases h <;> exact hs

/-- A reset clears `rxfull`, whatever it draws for the latch, or leaves both flags (70_reset_and_hazards.md R191). -/
theorem ResetStep.rxLatched {f g : DscrState} {e : Event} (h : ResetStep f e g) (hf : f.RxLatched) :
    g.RxLatched := by
  cases h with
  | processorReset => exact hf
  | debugReset | bothResets =>
    intro hrx
    cases hrx

/-- Settles O30: the two fills set both flags, the read of DBGDTRRX clears the live one, the latching copies it. -/
theorem rxFullImpliesItsLatch : Obligations.RxFullImpliesItsLatch := by
  intro s t hc hs h
  obtain hd | ⟨d, p31, q, rest, -, -, hd⟩ | ⟨e, -, hd⟩ := step_dscr h
  · exact hd.rxLatched hc hs
  · exact hd.rxLatched hs
  · exact hd.rxLatched hs

end Sys2Proof.Machine
end

section
/-! SUPPORT. The processor's turn: where its next instruction comes from, what it then runs, and when it is refused
(20_memory.md R62, 30_encoding.md R75, R76, 42_hardware_events.md R150, 60_exceptions.md R172). -/

namespace Sys2Proof.Machine

/-! ### Where the next instruction comes from -/

theorem nextInstr_of_pc {s : State} {bs : List Byte} (hh : s.dscr.halted = false) (hw : s.handover = [])
    (ha : s.pc.extractLsb' 0 2 = 0#2) (hm : s.mem.readBytes s.pc.toNat 4 = .ok bs) : s.nextInstr = .bytes bs := by
  simp [State.nextInstr, fetch, hh, hw, ha, hm]

theorem nextInstr_of_misaligned {s : State} (hh : s.dscr.halted = false) (hw : s.handover = [])
    (ha : s.pc.extractLsb' 0 2 ≠ 0#2) : s.nextInstr = .refused .misalignedPc := by
  simp [State.nextInstr, fetch, hh, hw, ha]

theorem nextInstr_of_issue {s : State} {w : Word} (hh : s.dscr.halted = true) (hi : s.issue = .begun w)
    (hc : s.dscr.instrcompl = false) : s.nextInstr = .bytes (bytesOfWord s.cfg.instrEndian w) := by
  simp [State.nextInstr, hh, hi, hc]

theorem nextInstr_of_waiting {s : State} (hh : s.dscr.halted = false) (hw : s.handover ≠ []) :
    s.nextInstr = .refused .exceptionEntryNotInSource := by
  simp [State.nextInstr, hh, hw]

/-! ### What the turn makes of it -/

theorem procTurn_of_refused {s : State} {r : Refusal} (hn : s.nextInstr = .refused r) : procTurn s = .refused r := by
  rw [procTurn, hn]

theorem procTurn_of_bytes {s : State} {bs tail : List Byte} {i : Instr} (hn : s.nextInstr = .bytes bs)
    (hd : decode s.cfg.instrEndian bs = .ok (i, tail)) : procTurn s = exec i s := by
  simp only [procTurn, hn, hd]

/-- The bytes of a word alone decode to what the word does. -/
theorem decode_word_ok {w : Word} {i : Instr} (e : Endian) (h : decodeWord w = .ok i) :
    decode e (bytesOfWord e w) = .ok (i, []) := by
  have hd := decode_bytesOfWord e w []
  rwa [List.append_nil, h] at hd

theorem decode_word_error {w : Word} {r : DecodeReject} (e : Endian) (h : decodeWord w = .error r) :
    decode e (bytesOfWord e w) = .error r := by
  have hd := decode_bytesOfWord e w []
  rwa [List.append_nil, h] at hd

theorem procTurn_of_word {s : State} {w : Word} {i : Instr}
    (hn : s.nextInstr = .bytes (bytesOfWord s.cfg.instrEndian w)) (hd : decodeWord w = .ok i) :
    procTurn s = exec i s :=
  procTurn_of_bytes hn (decode_word_ok _ hd)

theorem procTurn_of_other_word {s : State} {w : Word} {r : DecodeReject}
    (hn : s.nextInstr = .bytes (bytesOfWord s.cfg.instrEndian w)) (hd : decodeWord w = .error r) :
    procTurn s = .refused .notInScope := by
  simp only [procTurn, hn, decode_word_error _ hd]

/-- Settles O4: the two places an instruction comes from, each by its own lemma. -/
theorem stepRunsTheDecodedInstruction : Obligations.StepRunsTheDecodedInstruction := by
  intro s i rest hnext
  rw [step_of_procNext hnext]
  refine ⟨fun bs tail hh hw ha hm hd => ?memory, fun w hh hi hc hd => ?dbgitr⟩
  case memory => exact procTurn_of_bytes (s := { s with sched := rest }) (nextInstr_of_pc hh hw ha hm) hd
  case dbgitr => exact procTurn_of_word (s := { s with sched := rest }) (nextInstr_of_issue hh hi hc) hd

/-- A word with condition 0b1111, or that matches neither row, decodes to nothing (R75, R76). -/
theorem decodeWord_error_of_no_row {w : Word}
    (h : condField w = 0b1111#4 ∨ (w &&& rowMask ≠ mrcMatch ∧ w &&& rowMask ≠ mcrMatch)) :
    ∃ r, decodeWord w = .error r := by
  cases hd : decodeWord w with
  | error r => exact ⟨r, rfl⟩
  | ok i =>
    obtain ⟨hc, hrow⟩ := decodeWord_ok hd
    obtain hbad | ⟨hmrc, hmcr⟩ := h
    · exact absurd hbad hc
    · obtain ⟨hm, -⟩ | ⟨hm, -⟩ := hrow
      · exact absurd hm hmrc
      · exact absurd hm hmcr

/-- Settles O6: the turn is refused by the fetch, or by the decoder on a word of neither row. -/
theorem otherWordsAreRefused : Obligations.OtherWordsAreRefused := by
  intro s w rest hnext
  rw [step_of_procNext hnext]
  refine ⟨fun hh hw ha => ?misaligned, fun hword => ?otherWord⟩
  case misaligned => exact procTurn_of_refused (s := { s with sched := rest }) (nextInstr_of_misaligned hh hw ha)
  case otherWord =>
    obtain ⟨r, hd⟩ := decodeWord_error_of_no_row hword
    refine ⟨fun hh hw ha hm => ?memory, fun hh hi hc => ?dbgitr⟩
    case memory => exact procTurn_of_other_word (s := { s with sched := rest }) (nextInstr_of_pc hh hw ha hm) hd
    case dbgitr => exact procTurn_of_other_word (s := { s with sched := rest }) (nextInstr_of_issue hh hi hc) hd

/-- Settles O55: the waiting trap leaves no next instruction, and the input of the rest of the processor empties the
list. -/
theorem trapWaitsToBeHandedOver : Obligations.TrapWaitsToBeHandedOver := by
  intro s rest hh hw
  refine ⟨fun hnext => ?turn, fun x pc user hn => step_of_eventStep hn rfl⟩
  case turn =>
    rw [step_of_procNext hnext]
    exact procTurn_of_refused (s := { s with sched := rest }) (nextInstr_of_waiting hh hw)

/-! ### A word placed at the fetch (log entry 28) -/

theorem withFetchWord_toNat (s : State) (w : Word) : s.withFetchWord 32 w.toNat = s.placeInstr w := by
  rw [State.withFetchWord, Nat.mod_eq_of_lt w.isLt, BitVec.ofNat_toNat, BitVec.setWidth_eq]

theorem placeInstr_of_halted {s : State} (h : s.dscr.halted = true) (w : Word) :
    s.placeInstr w = { s with
      itr := w
      issue := .begun w
      dscr := { s.dscr with instrcompl := false }
      sched := procFirst s.sched } := if_pos h

theorem placeInstr_of_normal {s : State} (h : s.dscr.halted = false) (w : Word) :
    s.placeInstr w = { s with
      mem := s.mem.writeBytes s.pc.toNat (bytesOfWord s.cfg.instrEndian w)
      handover := []
      sched := procFirst s.sched } := by
  rw [State.placeInstr, h]
  rfl

/-- A placed word makes the next turn the processor's, with the whole old schedule after it. -/
theorem procNext_placeInstr (s : State) (w : Word) : (s.placeInstr w).ProcNext s.sched := by
  have hsched : (s.placeInstr w).sched = procFirst s.sched := by
    cases h : s.dscr.halted with
    | true => rw [placeInstr_of_halted h]
    | false => rw [placeInstr_of_normal h]
  rw [State.ProcNext, hsched]
  cases s.sched with
  | nil => exact .inl ⟨rfl, rfl⟩
  | cons t ts => exact .inr rfl

/-- The processor finds the placed word: in DBGITR in debug state, in memory at an aligned pc. -/
theorem nextInstr_placeInstr {s : State} (w : Word) (h : s.dscr.halted = true ∨ s.pc.extractLsb' 0 2 = 0#2)
    (ts : List Turn) :
    ({ s.placeInstr w with sched := ts } : State).nextInstr = .bytes (bytesOfWord s.cfg.instrEndian w) := by
  cases hh : s.dscr.halted with
  | true =>
    rw [placeInstr_of_halted hh]
    exact nextInstr_of_issue hh rfl rfl
  | false =>
    rw [placeInstr_of_normal hh]
    have hread := Memory.readBytes_writeBytes (bytesOfWord s.cfg.instrEndian w) s.mem s.pc.toNat
    rw [length_bytesOfWord] at hread
    exact nextInstr_of_pc hh rfl (h.resolve_left (by simp [hh])) hread

theorem placeInstr_cfg (s : State) (w : Word) : (s.placeInstr w).cfg = s.cfg := by
  rw [State.placeInstr]
  split <;> rfl

/-- Settles O5: the next turn is the processor's, it finds the placed word, and that word decodes to the
instruction. -/
theorem placedWordIsFetchedAndRun : Obligations.PlacedWordIsFetchedAndRun := by
  intro s i hwf hplace
  rw [withFetchWord_toNat, step_of_procNext (procNext_placeInstr s (encode i))]
  refine procTurn_of_word (w := encode i) ?_ (decodeWord_encode hwf)
  rw [nextInstr_placeInstr (encode i) hplace, placeInstr_cfg]

end Sys2Proof.Machine
end

section
/-! SUPPORT. The rest of the bits of a read view (10_state.md R50), and what a write leaves in each field (R52). -/

namespace Sys2Proof.Machine

/-! ### Single bits of a view -/

theorem dscrView_rxfull (s : State) (b27 b26 b24 : Bool) :
    (dscrView s b27 b26 b24).getLsbD 30 = s.dscr.rxfull := by
  rw [getLsbD_dscrView]
  simp

theorem dscrView_txfull (s : State) (b27 b26 b24 : Bool) :
    (dscrView s b27 b26 b24).getLsbD 29 = s.dscr.txfull := by
  rw [getLsbD_dscrView]
  simp

theorem dscrView_pipeadv (s : State) (b27 b26 b24 : Bool) :
    (dscrView s b27 b26 b24).getLsbD 25 = s.dscr.pipeadv := by
  rw [getLsbD_dscrView]
  simp

theorem dscrView_adadiscard (s : State) (b27 b26 b24 : Bool) :
    (dscrView s b27 b26 b24).getLsbD 19 = s.dscr.adadiscard := by
  rw [getLsbD_dscrView]
  simp

theorem dscrView_itrEn (s : State) (b27 b26 b24 : Bool) :
    (dscrView s b27 b26 b24).getLsbD 13 = s.dscr.itrEn := by
  rw [getLsbD_dscrView]
  simp

theorem dscrView_comms (s : State) (b27 b26 b24 : Bool) :
    (dscrView s b27 b26 b24).getLsbD 12 = s.dscr.comms := by
  rw [getLsbD_dscrView]
  simp

theorem dscrView_stickyUnd (s : State) (b27 b26 b24 : Bool) :
    (dscrView s b27 b26 b24).getLsbD 8 = s.dscr.stickyUnd := by
  rw [getLsbD_dscrView]
  simp

theorem dscrView_stickyAabt (s : State) (b27 b26 b24 : Bool) :
    (dscrView s b27 b26 b24).getLsbD 7 = s.dscr.stickyAabt := by
  rw [getLsbD_dscrView]
  simp

theorem dscrView_stickySabt (s : State) (b27 b26 b24 : Bool) :
    (dscrView s b27 b26 b24).getLsbD 6 = s.dscr.stickySabt := by
  rw [getLsbD_dscrView]
  simp

theorem dscrView_bit24 (s : State) (b27 b26 b24 : Bool) : (dscrView s b27 b26 b24).getLsbD 24 = b24 := by
  rw [getLsbD_dscrView]
  simp

/-- The CP14 view as one view of the state, for both values of `CP14_LATCH_VIEW` (R50, D7). -/
theorem dscrCp14_eq (s : State) (d : Word) :
    dscrCp14 s d =
      dscrView s (if s.cfg.cp14LatchView = .live then s.dscr.rxfull else d.getLsbD 27)
        (if s.cfg.cp14LatchView = .live then s.dscr.txfull else d.getLsbD 26) (shownInstrcompl s d) := by
  cases h : s.cfg.cp14LatchView <;> simp only [dscrCp14, h] <;> rfl

/-- Settles O20: the CP14 view is a view, and each field shows in its own bits of a view. -/
theorem cp14ReadViewBits : Obligations.Cp14ReadViewBits := by
  intro s d
  rw [dscrCp14_eq]
  exact ⟨dscrView_and_resMask .., dscrView_rxfull .., dscrView_txfull .., dscrView_bit27 .., dscrView_bit26 ..,
    dscrView_pipeadv .., dscrView_bit24 .., dtrAccess_of_dscrView .., dscrView_adadiscard .., dscrView_monEn ..,
    dscrView_haltEn .., dscrView_itrEn .., dscrView_comms .., dscrView_intdis .., dscrView_dbgack ..,
    dscrView_stickyUnd .., dscrView_stickyAabt .., dscrView_stickySabt .., moe_of_dscrView ..,
    dscrView_restarted .., dscrView_halted ..⟩

/-! ### When a write is refused (R52) -/

/-- The three tests of a write, as its data passes them. -/
theorem writeAccepted_iff (f : DscrState) (d : Word) :
    WriteAccepted f d ↔
      d &&& resMask = 0#32 ∧ d.extractLsb' 20 2 ≠ 0b11#2 ∧ (d.getLsbD 13 = true → f.halted = true) :=
  ⟨fun ⟨hres, hmode, hitr⟩ => ⟨hres, hmode, hitr⟩, fun ⟨hres, hmode, hitr⟩ => ⟨hres, hmode, hitr⟩⟩

theorem dscrWrite_of_accepted {f : DscrState} {d : Word} (o : Word) (h : WriteAccepted f d) :
    dscrWrite o f d = .ok (dscrStored o f d) :=
  (dscrWrite_ok o f _ d).2 ⟨h, rfl⟩

theorem dscrWrite_sbzp (o : Word) (f : DscrState) {d : Word} (h : d &&& resMask ≠ 0#32) :
    dscrWrite o f d = .error .sbzpViolated := by
  rw [dscrWrite, if_pos h]

theorem dscrWrite_reservedMode (o : Word) (f : DscrState) {d : Word} (hres : d &&& resMask = 0#32)
    (hmode : d.extractLsb' 20 2 = 0b11#2) : dscrWrite o f d = .error .reservedDtrMode := by
  rw [dscrWrite, if_neg (not_not_intro hres), if_pos hmode]

theorem dscrWrite_itrEn (o : Word) {f : DscrState} {d : Word} (hres : d &&& resMask = 0#32)
    (hmode : d.extractLsb' 20 2 ≠ 0b11#2) (hitr : d.getLsbD 13 = true) (hh : f.halted = false) :
    dscrWrite o f d = .error .itrEnOutsideDebugState := by
  rw [dscrWrite, if_neg (not_not_intro hres), if_neg hmode, hitr, hh]
  rfl

/-! ### What a write stores (R35, R52) -/

/-- An open bit is stored exactly when the set has it. -/
theorem openBit_and_openMask (w d : Word) {i : Nat} (old : Bool) (h : openMask.getLsbD i = true) :
    openBit (w &&& openMask) d i old = if w.getLsbD i then d.getLsbD i else old := by
  rw [openBit, BitVec.getLsbD_and, h, Bool.and_true]

/-- Each bit of the method of entry is stored exactly when the set of open bits has it. -/
theorem getLsbD_openMoe (o d : Word) (old : BitVec 4) {k : Nat} (hk : k < 4) :
    (openMoe o d old).getLsbD k = if o.getLsbD (k + 2) then d.getLsbD (k + 2) else old.getLsbD k := by
  simp only [openMoe, BitVec.getLsbD_or, BitVec.getLsbD_and, BitVec.getLsbD_not, BitVec.getLsbD_extractLsb',
    Nat.add_comm 2 k, hk, decide_true, Bool.true_and]
  cases o.getLsbD (k + 2) <;> simp

/-- What a write leaves in the open bits, for an interface whose set of open bits is `w`. -/
theorem dscrStored_open (w : Word) (f : DscrState) (d : Word) :
    (dscrStored (w &&& openMask) f d).rxfull = (if w.getLsbD 30 then d.getLsbD 30 else f.rxfull) ∧
    (dscrStored (w &&& openMask) f d).txfull = (if w.getLsbD 29 then d.getLsbD 29 else f.txfull) ∧
    (dscrStored (w &&& openMask) f d).rxfullL = (if w.getLsbD 27 then d.getLsbD 27 else f.rxfullL) ∧
    (dscrStored (w &&& openMask) f d).txfullL = (if w.getLsbD 26 then d.getLsbD 26 else f.txfullL) ∧
    (dscrStored (w &&& openMask) f d).adadiscard = (if w.getLsbD 19 then d.getLsbD 19 else f.adadiscard) ∧
    (dscrStored (w &&& openMask) f d).stickyUnd = (if w.getLsbD 8 then d.getLsbD 8 else f.stickyUnd) ∧
    (dscrStored (w &&& openMask) f d).stickyAabt = (if w.getLsbD 7 then d.getLsbD 7 else f.stickyAabt) ∧
    (dscrStored (w &&& openMask) f d).stickySabt = (if w.getLsbD 6 then d.getLsbD 6 else f.stickySabt) ∧
    (∀ k < 4, (dscrStored (w &&& openMask) f d).moe.getLsbD k =
      (if w.getLsbD (k + 2) then d.getLsbD (k + 2) else f.moe.getLsbD k)) := by
  refine ⟨openBit_and_openMask _ _ _ (by decide), openBit_and_openMask _ _ _ (by decide),
    openBit_and_openMask _ _ _ (by decide), openBit_and_openMask _ _ _ (by decide),
    openBit_and_openMask _ _ _ (by decide), openBit_and_openMask _ _ _ (by decide),
    openBit_and_openMask _ _ _ (by decide), openBit_and_openMask _ _ _ (by decide), fun k hk => ?moe⟩
  case moe =>
    have hopen : ∀ k < 4, openMask.getLsbD (k + 2) = true := by decide
    have hmoe := getLsbD_openMoe (w &&& openMask) d f.moe hk
    rwa [BitVec.getLsbD_and, hopen k hk, Bool.and_true] at hmoe

/-- Where no open bit is stored a write leaves the control bits of its data and every other field as it was. -/
theorem dscrStored_zero (f : DscrState) (d : Word) :
    dscrStored 0#32 f d = { f with
      dtrAccess := d.extractLsb' 20 2, monProg := d.getLsbD 15, haltProg := d.getLsbD 14, itrEn := d.getLsbD 13,
      comms := d.getLsbD 12, intdis := d.getLsbD 11, dbgack := d.getLsbD 10 } := by
  simp only [dscrStored, openBit_zero, openMoe_zero]

/-! ### The same write twice (20_memory.md section 2) -/

theorem openBit_openBit (o d : Word) (i : Nat) (old : Bool) :
    openBit o d i (openBit o d i old) = openBit o d i old := by
  unfold openBit
  split <;> rfl

theorem openMoe_openMoe (o d : Word) (old : BitVec 4) : openMoe o d (openMoe o d old) = openMoe o d old := by
  apply BitVec.eq_of_getLsbD_eq
  intro k hk
  rw [getLsbD_openMoe _ _ _ hk, getLsbD_openMoe _ _ _ hk]
  split <;> rfl

theorem dscrStored_dscrStored (o : Word) (f : DscrState) (d : Word) :
    dscrStored o (dscrStored o f d) d = dscrStored o f d := by
  simp only [dscrStored, openBit_openBit, openMoe_openMoe]

/-- Settles O19: the second write is accepted, since the first kept `halted`, and stores each bit again. -/
theorem repeatedWriteChangesNothing : Obligations.RepeatedWriteChangesNothing := by
  intro o f g d h
  obtain ⟨⟨hres, hmode, hitr⟩, rfl⟩ := (dscrWrite_ok o f g d).1 h
  exact (dscrWrite_ok _ _ _ _).2 ⟨⟨hres, hmode, hitr⟩, (dscrStored_dscrStored o f d).symm⟩

end Sys2Proof.Machine
end

section
/-! SUPPORT. The two instructions (40_cp14_access.md R80 to R84): when each completes, traps, is refused or is skipped,
what it leaves unchanged, and what one reads after the other. -/

namespace Sys2Proof.Machine

/-! ### The access check and the trap (60_exceptions.md R171, R172) -/

theorem accessPermitted_read {s : State} (h : s.user = false ∨ s.dscr.comms = false) :
    accessPermitted s .read = true :=
  (accessPermitted_iff s .read).2 (h.imp id fun hcomms => ⟨hcomms, fun hk => by cases hk⟩)

theorem accessPermitted_write {s : State}
    (h : s.user = false ∨ (s.dscr.comms = false ∧ s.cfg.userDscrWrite = .permitted)) :
    accessPermitted s .write = true :=
  (accessPermitted_iff s .write).2 (h.imp id fun ⟨hcomms, hcfg⟩ => ⟨hcomms, fun _ => hcfg⟩)

theorem accessPermitted_comms {s : State} (k : AccessKind) (hu : s.user = true) (hc : s.dscr.comms = true) :
    accessPermitted s k = false := by
  rw [← Bool.not_eq_true, accessPermitted_iff]
  simp [hu, hc]

theorem accessPermitted_undefined {s : State} (hu : s.user = true)
    (h : s.cfg.userDscrWrite = .undefinedInstruction) : accessPermitted s .write = false := by
  rw [← Bool.not_eq_true, accessPermitted_iff]
  simp [hu, h]

/-- The Undefined Instruction exception, written out. -/
theorem takeException_undefined (s : State) :
    s.takeException .undefinedInstruction = { s with
      handover := s.handover ++ [⟨.undefinedInstruction, s.pc⟩]
      dscr := { s.dscr with stickyUnd := s.dscr.stickyUnd || s.dscr.halted }
      issue := if s.dscr.halted then s.issue.except else s.issue } := by
  simp only [State.takeException, decide_true, Bool.true_and]

/-! ### What each instruction does -/

theorem runCp14_r15 {k : AccessKind} {c : Cond} {f : Fin 15 → State → Except Refusal State} {s : State}
    (hc : c ≠ 0b1111#4) (hp : conditionPassed s c = true) : runCp14 k c .r15 f s = .refused .rdIs15 := by
  simp only [runCp14, if_neg hc, if_pos hp]

theorem exec_mrc_done {s : State} {c : Cond} (i : Fin 15) (hc : c ≠ 0b1111#4) (hp : conditionPassed s c = true)
    (ha : accessPermitted s .read = true) :
    exec (.mrcDbgdscr c (.gpr i)) s = .next ((s.writeReg i (dscrCp14 s s.draw)).drawn 1).complete := by
  rw [exec_mrcDbgdscr]
  exact runCp14_done hc hp ha rfl

theorem mcrTransfer_of_write {s : State} {i : Fin 15} {g : DscrState}
    (h : dscrWrite (openCp14 s.cfg) s.dscr (s.readReg i) = .ok g) : mcrTransfer i s = .ok (s.withDscr g) := by
  rw [mcrTransfer, h]

theorem mcrTransfer_of_refusal {s : State} {i : Fin 15} {e : Refusal}
    (h : dscrWrite (openCp14 s.cfg) s.dscr (s.readReg i) = .error e) : mcrTransfer i s = .error e := by
  rw [mcrTransfer, h]

theorem exec_mcr_done {s : State} {c : Cond} {i : Fin 15} {g : DscrState} (hc : c ≠ 0b1111#4)
    (hp : conditionPassed s c = true) (ha : accessPermitted s .write = true)
    (hw : dscrWrite (openCp14 s.cfg) s.dscr (s.readReg i) = .ok g) :
    exec (.mcrDbgdscr c (.gpr i)) s = .next (s.withDscr g).complete := by
  rw [exec_mcrDbgdscr]
  exact runCp14_done hc hp ha (mcrTransfer_of_write hw)

theorem exec_mcr_refused {s : State} {c : Cond} {i : Fin 15} {e : Refusal} (hc : c ≠ 0b1111#4)
    (hp : conditionPassed s c = true) (ha : accessPermitted s .write = true)
    (hw : dscrWrite (openCp14 s.cfg) s.dscr (s.readReg i) = .error e) :
    exec (.mcrDbgdscr c (.gpr i)) s = .refused e := by
  rw [exec_mcrDbgdscr]
  exact runCp14_refused hc hp ha (mcrTransfer_of_refusal hw)

/-- With the access permitted, the MCR completes exactly on the data a write accepts. -/
theorem exec_mcr_next_iff {s : State} {c : Cond} {i : Fin 15} (hc : c ≠ 0b1111#4)
    (hp : conditionPassed s c = true) (ha : accessPermitted s .write = true) :
    (∃ t, exec (.mcrDbgdscr c (.gpr i)) s = .next t) ↔ WriteAccepted s.dscr (s.readReg i) := by
  constructor
  · rintro ⟨t, h⟩
    cases hw : dscrWrite (openCp14 s.cfg) s.dscr (s.readReg i) with
    | ok g => exact ((dscrWrite_ok _ _ _ _).1 hw).1
    | error e =>
      rw [exec_mcr_refused hc hp ha hw] at h
      cases h
  · exact fun hacc => ⟨_, exec_mcr_done hc hp ha (dscrWrite_of_accepted _ hacc)⟩

/-- Settles O7: the template completes around the MRC's transfer. -/
theorem mrcReadsTheRegister : Obligations.MrcReadsTheRegister :=
  fun _ _ i hc hp ha => exec_mrc_done i hc hp (accessPermitted_read ha)

/-- Settles O8: the template completes around an accepted write, whose fields are those of R52. -/
theorem mcrWritesTheRegister : Obligations.McrWritesTheRegister := by
  intro s c i hc hp ha hres hmode hitr
  have hw := dscrWrite_of_accepted (openCp14 s.cfg) (f := s.dscr) (d := s.readReg i) ⟨hres, hmode, hitr⟩
  obtain ⟨hrx, htx, hrxL, htxL, had, hund, haabt, hsabt, hmoe⟩ :=
    dscrStored_open s.cfg.wOpen s.dscr (s.readReg i)
  exact ⟨{ dscrStored (openCp14 s.cfg) s.dscr (s.readReg i) with pipeadv := true },
    exec_mcr_done hc hp (accessPermitted_write ha) hw, rfl, rfl, rfl, rfl, rfl, rfl, rfl, hrx, htx, hrxL, htxL, had,
    hund, haabt, hsabt, hmoe, rfl, rfl, rfl, rfl, rfl⟩

/-- Settles O9: each refused test of the write, and the converse. -/
theorem mcrRefusesExactlyBadData : Obligations.McrRefusesExactlyBadData := by
  intro s c i hc hp ha
  have hperm := accessPermitted_write ha
  exact ⟨fun hres => exec_mcr_refused hc hp hperm (dscrWrite_sbzp _ _ hres),
    fun hres hmode => exec_mcr_refused hc hp hperm (dscrWrite_reservedMode _ _ hres hmode),
    fun hres hmode hitr hh => exec_mcr_refused hc hp hperm (dscrWrite_itrEn _ hres hmode hitr hh),
    (exec_mcr_next_iff hc hp hperm).trans (writeAccepted_iff _ _)⟩

/-- Both instructions are the template around some access and some transfer. -/
theorem exec_eq_runCp14 (i : Instr) : ∃ k f, ∀ s, exec i s = runCp14 k i.cond i.rd f s := by
  cases i with
  | mrcDbgdscr c r => exact ⟨_, _, exec_mrcDbgdscr c r⟩
  | mcrDbgdscr c r => exact ⟨_, _, exec_mcrDbgdscr c r⟩

/-- Settles O10: the template skips the operand and the transfer. -/
theorem failedConditionOnlyRetires : Obligations.FailedConditionOnlyRetires := by
  intro s i hc hp
  obtain ⟨k, f, hexec⟩ := exec_eq_runCp14 i
  rw [hexec]
  exact runCp14_skip hc hp

/-- Settles O11: the template asks the operand after the condition and before anything else. -/
theorem rdFifteenIsRefused : Obligations.RdFifteenIsRefused := by
  intro s i hc hp hr
  obtain ⟨k, f, hexec⟩ := exec_eq_runCp14 i
  rw [hexec, hr]
  exact runCp14_r15 hc hp

/-- Settles O12: the access check fails for either kind of access, before the data is looked at. -/
theorem userAccessWithCommsSetTraps : Obligations.UserAccessWithCommsSetTraps := by
  intro s i r hc hp hr hu hcomms
  obtain ⟨k, f, hexec⟩ := exec_eq_runCp14 i
  rw [hexec, hr, ← takeException_undefined]
  exact runCp14_trap hc hp (accessPermitted_comms k hu hcomms)

/-- Where the access is permitted in User mode too, the write function decides the MCR alike in both modes. -/
theorem exec_mcr_of_privileged {s : State} {c : Cond} {i : Fin 15} (hc : c ≠ 0b1111#4)
    (hp : conditionPassed s c = true) (hu : s.user = true) (ha : accessPermitted s .write = true) :
    (∀ t, exec (.mcrDbgdscr c (.gpr i)) { s with user := false } = .next t →
      exec (.mcrDbgdscr c (.gpr i)) s = .next { t with user := true }) ∧
    (∀ e, exec (.mcrDbgdscr c (.gpr i)) { s with user := false } = .refused e →
      exec (.mcrDbgdscr c (.gpr i)) s = .refused e) := by
  have hpriv : accessPermitted { s with user := false } .write = true := accessPermitted_write (.inl rfl)
  cases hw : dscrWrite (openCp14 s.cfg) s.dscr (s.readReg i) with
  | ok g =>
    rw [exec_mcr_done (s := { s with user := false }) hc hp hpriv hw, exec_mcr_done hc hp ha hw]
    refine ⟨fun t h => ?_, fun e h => by cases h⟩
    cases h
    rw [← hu]
    rfl
  | error r =>
    rw [exec_mcr_refused (s := { s with user := false }) hc hp hpriv hw, exec_mcr_refused hc hp ha hw]
    exact ⟨fun t h => (by cases h), fun e h => h⟩

/-- Settles O13: the parameter decides the access check, and past it the mode is not asked again. -/
theorem userWriteFollowsItsParameter : Obligations.UserWriteFollowsItsParameter := by
  intro s c i hc hp hu hcomms
  refine ⟨fun hcfg => ?trap, fun hcfg => ?write⟩
  case trap =>
    rw [← takeException_undefined]
    exact runCp14_trap hc hp (accessPermitted_undefined hu hcfg)
  case write => exact exec_mcr_of_privileged hc hp hu (accessPermitted_write (.inr ⟨hcomms, hcfg⟩))

/-! ### What each instruction leaves unchanged -/

/-- A trap that sets `sticky_und` is taken in debug state, and every trap is handed over. -/
theorem takeException_stickyUnd_of_same {s : State} {k : TrapKind}
    (h : s.dscr.halted = false ∨ (s.takeException k).handover = s.handover) :
    (s.takeException k).dscr.stickyUnd = s.dscr.stickyUnd := by
  obtain hh | hsame := h
  · simp [hh]
  · simp at hsame

/-- Settles O14: the failed condition, the transfer and the trap, each an update that names what it changes. -/
theorem mrcFrame : Obligations.MrcFrame := by
  intro s t c r h
  have hframe := exec_frame h
  rw [exec_mrcDbgdscr] at h
  obtain ⟨-, ⟨-, rfl⟩ | ⟨-, i, rfl, -, u, hu, rfl⟩ | ⟨-, i, rfl, -, rfl⟩⟩ := runCp14_next h
  · exact ⟨fun _ => rfl, fun _ _ => rfl, rfl, fun _ => rfl, hframe⟩
  · cases hu
    exact ⟨fun _ => rfl, fun j hj => Vector.getElem_set_ne i.isLt j.isLt fun hij => hj (congrArg Rd.gpr (Fin.ext hij)),
      rfl, fun _ => rfl, hframe⟩
  · exact ⟨fun _ => rfl, fun _ _ => rfl, rfl, takeException_stickyUnd_of_same, hframe⟩

/-- Settles O15: the same three cases; an accepted write keeps both instruction-complete flags and bits 1 and 0. -/
theorem mcrFrame : Obligations.McrFrame := by
  intro s t c r h
  have hframe := exec_frame h
  rw [exec_mcrDbgdscr] at h
  obtain ⟨-, ⟨-, rfl⟩ | ⟨-, i, rfl, -, u, hu, rfl⟩ | ⟨-, i, rfl, -, rfl⟩⟩ := runCp14_next h
  · exact ⟨fun _ => rfl, fun _ => rfl, rfl, rfl, rfl, rfl, rfl⟩
  · obtain ⟨-, rfl⟩ := (mcrTransfer_ok i s u).1 hu
    exact ⟨fun _ => rfl, fun _ => rfl, rfl, rfl, rfl, rfl, rfl⟩
  · exact ⟨fun _ => rfl, fun _ => rfl, rfl, rfl, rfl, rfl, rfl⟩

/-! ### The value of an MRC (R83, R84) -/

/-- An MRC that its mode permits leaves the CP14 view in its register. -/
theorem exec_mrc_value {s t : State} {c : Cond} {i : Fin 15} (h : exec (.mrcDbgdscr c (.gpr i)) s = .next t)
    (hp : conditionPassed s c = true) (ha : s.user = false ∨ s.dscr.comms = false) :
    t.x[i.val] = dscrCp14 s s.draw := by
  obtain ⟨hc, -⟩ := runCp14_next ((exec_mrcDbgdscr c (.gpr i) s).symm.trans h)
  rw [exec_mrc_done i hc hp (accessPermitted_read ha)] at h
  cases h
  exact Vector.getElem_set_self _

/-- Bits 1:0 of a value are 0b10 when bit 1 is 1 and bit 0 is 0. -/
theorem extractLsb'_two_of_bits {v : Word} (h1 : v.getLsbD 1 = true) (h0 : v.getLsbD 0 = false) :
    v.extractLsb' 0 2 = 0b10#2 := by
  apply BitVec.eq_of_getLsbD_eq
  intro k hk
  have : k = 0 ∨ k = 1 := by omega
  obtain rfl | rfl := this
  · simpa using h0
  · simpa using h1

/-- Settles O16: laws of the view, and of the run state in normal state. -/
theorem readValueLaws : Obligations.ReadValueLaws := by
  intro s t c i hp ha h
  rw [exec_mrc_value h hp ha]
  obtain ⟨b27, b26, hview, hlive⟩ := dscrCp14_eq_dscrView s s.draw
  rw [hview]
  refine ⟨dscrView_and_resMask .., fun hl => ?latches, fun hinv hh => ?run⟩
  case latches =>
    obtain ⟨rfl, rfl⟩ := hlive hl
    rw [dscrView_bit27, dscrView_rxfull, dscrView_bit26, dscrView_txfull]
    exact ⟨rfl, rfl⟩
  case run =>
    have hr : s.dscr.restarted = true := hinv.running.resolve_left (by simp [hh])
    exact extractLsb'_two_of_bits ((dscrView_restarted ..).trans hr) ((dscrView_halted ..).trans hh)

/-- A privileged MCR that completes leaves the record that its accepted write leaves, retired. -/
theorem exec_mcr_value {s t : State} {i : Fin 15} (hu : s.user = false)
    (h : exec (.mcrDbgdscr 0b1110#4 (.gpr i)) s = .next t) :
    WriteAccepted s.dscr (s.readReg i) ∧
      t = (s.withDscr (dscrStored (openCp14 s.cfg) s.dscr (s.readReg i))).complete := by
  have hacc := (exec_mcr_next_iff (by decide) rfl (accessPermitted_write (.inl hu))).1 ⟨t, h⟩
  rw [exec_mcr_done (by decide) rfl (accessPermitted_write (.inl hu)) (dscrWrite_of_accepted _ hacc)] at h
  cases h
  exact ⟨hacc, rfl⟩

/-- Two words agree on bits 13:10 when they agree on each of them. -/
theorem extractLsb'_four_congr {v w : Word} (h13 : v.getLsbD 13 = w.getLsbD 13) (h12 : v.getLsbD 12 = w.getLsbD 12)
    (h11 : v.getLsbD 11 = w.getLsbD 11) (h10 : v.getLsbD 10 = w.getLsbD 10) :
    v.extractLsb' 10 4 = w.extractLsb' 10 4 := by
  apply BitVec.eq_of_getLsbD_eq
  intro k hk
  have : k = 0 ∨ k = 1 ∨ k = 2 ∨ k = 3 := by omega
  obtain rfl | rfl | rfl | rfl := this
  · simpa using h10
  · simpa using h11
  · simpa using h12
  · simpa using h13

/-- Settles O17: the MRC reads the view of the state that the MCR left. -/
theorem mrcReadsBackWhatMcrWrote : Obligations.MrcReadsBackWhatMcrWrote := by
  intro s t u i j hu hmcr hmrc
  obtain ⟨-, rfl⟩ := exec_mcr_value hu hmcr
  rw [exec_mrc_value hmrc rfl (.inl hu), dscrCp14_eq]
  refine ⟨dtrAccess_of_dscrView .., ?low, dscrView_monEn .., dscrView_haltEn .., dscrView_pipeadv .., fun hh => ?ic,
    fun hopen => ?closed⟩
  case low =>
    exact extractLsb'_four_congr (dscrView_itrEn ..) (dscrView_comms ..) (dscrView_intdis ..) (dscrView_dbgack ..)
  case ic => exact (dscrView_bit24 ..).trans (if_pos hh)
  case closed =>
    simp only [hopen, dscrStored_zero]
    refine ⟨dscrView_rxfull .., dscrView_txfull .., fun hlive => ⟨?_, ?_⟩, dscrView_adadiscard ..,
      dscrView_stickyUnd .., dscrView_stickyAabt .., dscrView_stickySabt .., moe_of_dscrView ..,
      dscrView_restarted .., dscrView_halted ..⟩
    · exact (dscrView_bit27 ..).trans (if_pos hlive)
    · exact (dscrView_bit26 ..).trans (if_pos hlive)

/-- In a state that meets the invariant a write of the CP14 view is accepted, whatever was drawn. -/
theorem writeAccepted_dscrCp14 {s : State} (h : s.dscr.Legal) (d : Word) : WriteAccepted s.dscr (dscrCp14 s d) := by
  rw [dscrCp14_eq]
  refine ⟨dscrView_and_resMask .., ?mode, fun hitr => h.itrEn ?itrEn⟩
  case mode =>
    rw [dtrAccess_of_dscrView]
    exact h.mode
  case itrEn => rwa [dscrView_itrEn] at hitr

/-- The CP14 view written back to the retired record, with no open bit stored: the two programmed enables become what
the view shows of them, and the rest stays. -/
theorem dscrStored_zero_dscrCp14 (s : State) (d : Word) :
    dscrStored 0#32 { s.dscr with pipeadv := true } (dscrCp14 s d) =
      { s.dscr with pipeadv := true, monProg := s.monEn, haltProg := s.haltEn } := by
  rw [dscrCp14_eq, dscrStored_zero, dtrAccess_of_dscrView, dscrView_monEn, dscrView_haltEn, dscrView_itrEn,
    dscrView_comms, dscrView_intdis, dscrView_dbgack]

/-- MRC then MCR of the same register: both complete, and the record is the one viewed, with the enables as seen. -/
theorem exec_mrc_then_mcr {s : State} (i : Fin 15) (hinv : s.Inv) (hu : s.user = false)
    (hopen : openCp14 s.cfg = 0#32) :
    ∃ t u, exec (.mrcDbgdscr 0b1110#4 (.gpr i)) s = .next t ∧ exec (.mcrDbgdscr 0b1110#4 (.gpr i)) t = .next u ∧
      u.dscr = { s.dscr with pipeadv := true, monProg := s.monEn, haltProg := s.haltEn } := by
  have hmrc := exec_mrc_done i (c := 0b1110#4) (s := s) (by decide) rfl (accessPermitted_read (.inl hu))
  generalize ht : ((s.writeReg i (dscrCp14 s s.draw)).drawn 1).complete = t at hmrc
  have hreg : t.readReg i = dscrCp14 s s.draw := by
    rw [← ht]
    exact Vector.getElem_set_self _
  have hdscr : t.dscr = { s.dscr with pipeadv := true } := by rw [← ht]; rfl
  have hcfg : openCp14 t.cfg = 0#32 := by rw [← ht]; exact hopen
  have hacc : WriteAccepted t.dscr (t.readReg i) := by
    obtain ⟨hres, hmode, hitr⟩ := writeAccepted_dscrCp14 hinv.legal s.draw
    rw [hreg, hdscr]
    exact ⟨hres, hmode, hitr⟩
  have hpriv : t.user = false := by rw [← ht]; exact hu
  refine ⟨t, _, hmrc, exec_mcr_done (by decide) rfl (accessPermitted_write (.inl hpriv))
    (dscrWrite_of_accepted _ hacc), ?_⟩
  rw [hreg, hdscr, hcfg, dscrStored_zero_dscrCp14]
  rfl

/-- Settles O18: an enable is seen as programmed while DBGEN is HIGH, and as 0 while it is LOW. -/
theorem readModifyWriteKeepsTheRegister : Obligations.ReadModifyWriteKeepsTheRegister := by
  intro s i hinv hu hopen
  obtain ⟨t, u, hmrc, hmcr, hdscr⟩ := exec_mrc_then_mcr i hinv hu hopen
  refine ⟨t, u, hmrc, hmcr, fun hgen => ?high, fun hgen => ?low⟩
  case high => rw [hdscr, State.monEn, State.haltEn, hgen, Bool.true_and, Bool.true_and]
  case low => rw [hdscr, State.monEn, State.haltEn, hgen, Bool.false_and, Bool.false_and]

end Sys2Proof.Machine
end

section
/-! SUPPORT. An access of the debugger reads nothing of the schedule (20_memory.md R66), so a step that makes one is
what the access comes to in the state before; and the accesses, mode by mode (41_dtr_access_mode.md R100 to R118). -/

namespace Sys2Proof.Machine

/-! ### The schedule plays no part in an access -/

/-- What an access comes to, in a state with another schedule. -/
def ApbOutcome.withSched (ts : List Turn) : ApbOutcome → ApbOutcome
  | .done s r => .done { s with sched := ts } r
  | .ignored s r => .ignored { s with sched := ts } r
  | .hold => .hold
  | .refuse r => .refuse r

/-- `access` reads nothing of the schedule and leaves it alone. -/
def IgnoresSched (access : State → ApbOutcome) : Prop :=
  ∀ (s : State) (ts : List Turn), access { s with sched := ts } = (access s).withSched ts

theorem debugEvent_withSched (k : DebugKind) (s : State) (ts : List Turn) :
    debugEvent k { s with sched := ts } = (debugEvent k s).map fun t => { t with sched := ts } := by
  have hmode : ({ s with sched := ts } : State).debugMode = s.debugMode := rfl
  unfold debugEvent
  rw [hmode]
  cases s.dscr.halted with
  | true => rfl
  | false =>
    cases moeCode k with
    | none => rfl
    | some code =>
      cases s.debugMode with
      | monitor => cases debugExceptionKind k <;> rfl
      | _ => rfl

theorem latchForRead_withSched (p31 : Bool) (s : State) (ts : List Turn) :
    ({ s with sched := ts } : State).latchForRead p31 = { s.latchForRead p31 with sched := ts } := by
  have hlock : ({ s with sched := ts } : State).lockedOut p31 = s.lockedOut p31 := rfl
  simp only [State.latchForRead, hlock]
  split <;> rfl

theorem apbReadDscr_ignoresSched (p31 : Bool) : IgnoresSched (apbReadDscr p31) := by
  intro s ts
  rw [apbReadDscr, latchForRead_withSched]
  rfl

theorem apbWriteDscr_ignoresSched (d : Word) : IgnoresSched (apbWriteDscr d) := by
  intro s ts
  simp only [apbWriteDscr]
  cases dscrWrite (openApb s.cfg) s.dscr d <;> rfl

theorem apbWriteDtrrx_ignoresSched (d : Word) : IgnoresSched (apbWriteDtrrx d) := by
  intro s ts
  cases hm : dtrModeOf s.dscr.dtrAccess <;>
    simp only [apbWriteDtrrx, hm, apply_ite (ApbOutcome.withSched ts)] <;> rfl

theorem apbReadDtrtx_ignoresSched : IgnoresSched apbReadDtrtx := by
  intro s ts
  cases hm : dtrModeOf s.dscr.dtrAccess <;>
    simp only [apbReadDtrtx, hm, apply_ite (ApbOutcome.withSched ts)] <;> rfl

theorem apbWriteItr_ignoresSched (d : Word) : IgnoresSched (apbWriteItr d) := by
  intro s ts
  cases hm : dtrModeOf s.dscr.dtrAccess <;>
    simp only [apbWriteItr, hm, apply_ite (ApbOutcome.withSched ts)] <;> rfl

theorem apbWriteDrcr_ignoresSched (d : Word) : IgnoresSched (apbWriteDrcr d) := by
  intro s ts
  have hevent : debugEvent .haltRequest (({ s with sched := ts } : State).withDscr (s.dscr.drcrClear d)) =
      (debugEvent .haltRequest (s.withDscr (s.dscr.drcrClear d))).map fun t => { t with sched := ts } :=
    debugEvent_withSched .haltRequest (s.withDscr (s.dscr.drcrClear d)) ts
  unfold apbWriteDrcr
  cases d.getLsbD 0 with
  | false => rfl
  | true =>
    simp only [if_true, hevent]
    cases debugEvent .haltRequest (s.withDscr (s.dscr.drcrClear d)) <;> rfl

theorem unlessLocked_ignoresSched (p31 : Bool) {access : State → ApbOutcome} (h : IgnoresSched access) :
    IgnoresSched fun s => unlessLocked p31 s access := by
  intro s ts
  have hlock : ({ s with sched := ts } : State).lockedOut p31 = s.lockedOut p31 := rfl
  simp only [unlessLocked, hlock, h s ts]
  cases s.lockedOut p31 <;> rfl

theorem apbAccess_ignoresSched (a : ApbAccess) : IgnoresSched (apbAccess a) := by
  cases a with
  | readDscr p31 => exact apbReadDscr_ignoresSched p31
  | writeDscr d p31 => exact unlessLocked_ignoresSched p31 (apbWriteDscr_ignoresSched d)
  | writeDtrrx d p31 => exact unlessLocked_ignoresSched p31 (apbWriteDtrrx_ignoresSched d)
  | readDtrtx p31 => exact unlessLocked_ignoresSched p31 apbReadDtrtx_ignoresSched
  | writeItr d p31 => exact unlessLocked_ignoresSched p31 (apbWriteItr_ignoresSched d)
  | writeDrcr d p31 => exact unlessLocked_ignoresSched p31 (apbWriteDrcr_ignoresSched d)

/-! ### The step that makes an access -/

section
variable {s t : State} {a : ApbAccess} {q : List ApbAccess} {rest : List Turn} {r : ApbReply} {e : Refusal}

theorem step_of_done (h : s.Accesses a q rest) (ha : apbAccess a s = .done t r) :
    step s = .next (t.answered q rest r) := by
  rw [step_of_accesses h, apbAccess_ignoresSched, ha]
  rfl

theorem step_of_ignored (h : s.Accesses a q rest) (ha : apbAccess a s = .ignored t r) :
    step s = .next (t.answered q rest r) := by
  rw [step_of_accesses h, apbAccess_ignoresSched, ha]
  rfl

theorem step_of_hold (h : s.Accesses a q rest) (ha : apbAccess a s = .hold) :
    step s = .next { s with portHeld := true, sched := rest } := by
  rw [step_of_accesses h, apbAccess_ignoresSched, ha]
  rfl

theorem step_of_refuse (h : s.Accesses a q rest) (ha : apbAccess a s = .refuse e) : step s = .refused e := by
  rw [step_of_accesses h, apbAccess_ignoresSched, ha]
  rfl

end

/-- Settles O34: the lock answers before the access, and the step is refused as the access is. -/
theorem lockedAccessIsRefused : Obligations.LockedAccessIsRefused :=
  fun _ _ _ d hlocked a ha h => step_of_refuse h (apbAccess_of_locked hlocked d a ha)

/-! ### The modes -/

theorem dtrModeOf_stall {f : BitVec 2} (h : f = 0b01#2) : dtrModeOf f = .stall := by
  rw [h]
  rfl

theorem dtrModeOf_fast {f : BitVec 2} (h : f = 0b10#2) : dtrModeOf f = .fast := by
  rw [h]
  rfl

section
variable {s : State}

theorem apbWriteDtrrx_nonBlocking (d : Word) (h : s.dscr.dtrAccess = 0b00#2) :
    apbWriteDtrrx d s = if s.dscr.rxfullL then .ignored s .written else .done (s.fillDtrrx d) .written := by
  rw [apbWriteDtrrx, dtrModeOf_nonBlocking h]

theorem apbWriteDtrrx_stall (d : Word) (h : s.dscr.dtrAccess = 0b01#2) :
    apbWriteDtrrx d s = if s.dscr.rxfull then .hold else .done (s.fillDtrrx d) .written := by
  rw [apbWriteDtrrx, dtrModeOf_stall h]

theorem apbWriteDtrrx_fast (d : Word) (h : s.dscr.dtrAccess = 0b10#2) :
    apbWriteDtrrx d s =
      if s.dscr.rxfull then .hold
      else if !s.dscr.halted || !s.dscr.itrEn then .refuse .fastIssueNotEnabled
      else if !s.dscr.instrcompl then .refuse .fastIssueWhileBusy
      else .done (s.fillDtrrx d).issueItr .written := by
  rw [apbWriteDtrrx, dtrModeOf_fast h]

theorem apbReadDtrtx_stall (h : s.dscr.dtrAccess = 0b01#2) :
    apbReadDtrtx s = if s.dscr.txfull then .done s.emptyDtrtx (.value s.dtrtx) else .hold := by
  rw [apbReadDtrtx, dtrModeOf_stall h]

theorem apbReadDtrtx_fast (h : s.dscr.dtrAccess = 0b10#2) :
    apbReadDtrtx s =
      if !s.dscr.txfull then .hold
      else if !s.dscr.halted || !s.dscr.itrEn then .refuse .fastIssueNotEnabled
      else if !s.dscr.instrcompl then .refuse .fastIssueWhileBusy
      else .done s.emptyDtrtx.issueItr (.value s.dtrtx) := by
  rw [apbReadDtrtx, dtrModeOf_fast h]

theorem apbWriteItr_nonBlocking (d : Word) (h : s.dscr.dtrAccess = 0b00#2) :
    apbWriteItr d s =
      if !s.dscr.halted then .refuse .itrWriteOutsideDebugState
      else if !s.dscr.instrcomplL then .ignored s .written
      else if !s.dscr.itrEn then .refuse .itrWriteWhileDisabled
      else .done (s.loadAndIssue d) .written := by
  rw [apbWriteItr, dtrModeOf_nonBlocking h]

theorem apbWriteItr_stall (d : Word) (h : s.dscr.dtrAccess = 0b01#2) :
    apbWriteItr d s =
      if !s.dscr.halted then .refuse .itrWriteOutsideDebugState
      else if !s.dscr.instrcompl then .hold
      else if !s.dscr.itrEn then .refuse .itrWriteWhileDisabled
      else .done (s.loadAndIssue d) .written := by
  rw [apbWriteItr, dtrModeOf_stall h]

theorem apbWriteItr_fast (d : Word) (h : s.dscr.dtrAccess = 0b10#2) :
    apbWriteItr d s =
      if !s.dscr.halted then .refuse .itrWriteOutsideDebugState
      else if !s.dscr.instrcompl then .hold
      else .done { s with itr := d } .written := by
  rw [apbWriteItr, dtrModeOf_fast h]

end

end Sys2Proof.Machine
end

section
/-! SUPPORT. What each access of the debugger does to the machine (41_dtr_access_mode.md sections 2 to 5, 8 and 9). -/

namespace Sys2Proof.Machine

/-! ### The read and the write of DBGDSCR (R101, R102) -/

/-- The read latches, unless the lock and the parameter keep it from it. -/
theorem latchForRead_of_latching {s : State} {p31 : Bool}
    (h : s.locked = false ∨ p31 = true ∨ s.cfg.lockedReadLatches = true) :
    s.latchForRead p31 = s.withDscr s.dscr.latch := by
  refine if_pos ?_
  rw [Bool.or_eq_true, Bool.not_eq_true', lockedOut_eq_false_iff]
  exact or_assoc.2 h

theorem latchForRead_of_quiet {s : State} {p31 : Bool} (hl : s.locked = true) (hp : p31 = false)
    (hc : s.cfg.lockedReadLatches = false) : s.latchForRead p31 = s := by
  refine if_neg ?_
  rw [State.lockedOut, hl, hp, hc]
  decide

/-- Settles O31: the read completes with the view of the state it has latched, or has left alone. -/
theorem debuggerReadLatchesAndReturns : Obligations.DebuggerReadLatchesAndReturns := by
  intro s p31 q rest h
  have hstep : step s = _ := step_of_done h (rfl : apbAccess (.readDscr p31) s = .done _ _)
  refine ⟨fun hlatch => ⟨_, rfl, ?latching⟩, fun hl hp hc => ?quiet⟩
  case latching =>
    rw [hstep, latchForRead_of_latching hlatch]
    rfl
  case quiet =>
    rw [hstep, latchForRead_of_quiet hl hp hc]
    rfl

section
variable {s : State} {d : Word} {p31 : Bool}

theorem apbAccess_writeDscr_done {g : DscrState} (hopen : s.locked = false ∨ p31 = true)
    (hw : dscrWrite (openApb s.cfg) s.dscr d = .ok g) :
    apbAccess (.writeDscr d p31) s = .done (s.withDscr g) .written := by
  rw [apbAccess, unlessLocked_of_open hopen, apbWriteDscr, hw]

theorem apbAccess_writeDscr_refuse {e : Refusal} (hopen : s.locked = false ∨ p31 = true)
    (hw : dscrWrite (openApb s.cfg) s.dscr d = .error e) : apbAccess (.writeDscr d p31) s = .refuse e := by
  rw [apbAccess, unlessLocked_of_open hopen, apbWriteDscr, hw]

end

/-- Settles O32: the write function decides, with the set of open bits that the APB interface stores. -/
theorem debuggerWriteStoresTheRegister : Obligations.DebuggerWriteStoresTheRegister := by
  intro s d w p31 q rest h hopen hw
  have hset : openApb s.cfg = w &&& openMask := by rw [hw]; rfl
  refine ⟨fun hres => ?sbzp, fun hres hmode => ?mode, fun hres hmode hitr hh => ?itrEn, fun hres hmode hitr => ?stored⟩
  case sbzp => exact step_of_refuse h (apbAccess_writeDscr_refuse hopen (dscrWrite_sbzp _ _ hres))
  case mode => exact step_of_refuse h (apbAccess_writeDscr_refuse hopen (dscrWrite_reservedMode _ _ hres hmode))
  case itrEn => exact step_of_refuse h (apbAccess_writeDscr_refuse hopen (dscrWrite_itrEn _ hres hmode hitr hh))
  case stored =>
    have hdone := apbAccess_writeDscr_done hopen
      (dscrWrite_of_accepted (openApb s.cfg) (f := s.dscr) ⟨hres, hmode, hitr⟩)
    rw [hset] at hdone
    obtain ⟨hrx, htx, hrxL, htxL, had, hund, haabt, hsabt, hmoe⟩ := dscrStored_open w s.dscr d
    exact ⟨dscrStored (w &&& openMask) s.dscr d, step_of_done h hdone, rfl, rfl, rfl, rfl, rfl, rfl, rfl, hrx, htx,
      hrxL, htxL, had, hund, haabt, hsabt, hmoe, rfl, rfl, rfl, rfl, rfl⟩

/-- Where the interfaces are equal they store the same open bits. -/
theorem openApb_of_equal {c : Config} (h : c.wIfaceEqual = true) : openApb c = openCp14 c := by
  rw [openApb, if_pos h]
  rfl

/-- Settles O33: both writes go through the write function with the same set, record and data. -/
theorem debuggerWriteStoresLikeMcr : Obligations.DebuggerWriteStoresLikeMcr := by
  intro s d p31 q rest h hopen
  refine ⟨fun g hw => step_of_done h (apbAccess_writeDscr_done hopen hw),
    fun e hw => step_of_refuse h (apbAccess_writeDscr_refuse hopen hw), fun heq r i hdscr hcfg hu hx => ?mcr⟩
  have hset : openCp14 r.cfg = openApb s.cfg := by rw [hcfg, openApb_of_equal heq]
  have hperm : accessPermitted r .write = true := accessPermitted_write (.inl hu)
  have hwrite : dscrWrite (openCp14 r.cfg) r.dscr (r.readReg i) = dscrWrite (openApb s.cfg) s.dscr d := by
    rw [hset, hdscr, State.readReg, hx]
  cases hw : dscrWrite (openApb s.cfg) s.dscr d with
  | ok g =>
    rw [exec_mcr_done (by decide) rfl hperm (hwrite.trans hw),
      step_of_done h (apbAccess_writeDscr_done hopen hw)]
    refine ⟨fun t ht => ?_, fun e he => by cases he⟩
    cases ht
    obtain ⟨-, rfl⟩ := (dscrWrite_ok _ _ _ _).1 hw
    rfl
  | error e =>
    rw [exec_mcr_refused (by decide) rfl hperm (hwrite.trans hw),
      step_of_refuse h (apbAccess_writeDscr_refuse hopen hw)]
    exact ⟨fun t ht => (by cases ht), fun e' he => by cases he; rfl⟩

/-! ### The DTR accesses (R103, R108, R109, R111, R112) -/

/-- Settles O35: the latch alone decides. -/
theorem nonBlockingDtrrxWrite : Obligations.NonBlockingDtrrxWrite := by
  intro s d p31 q rest h hopen hmode
  have haccess := (unlessLocked_of_open hopen (apbWriteDtrrx d)).trans (apbWriteDtrrx_nonBlocking d hmode)
  exact ⟨fun hset => step_of_ignored h (haccess.trans (if_pos hset)),
    fun hclear => step_of_done h (haccess.trans (if_neg (by simp [hclear])))⟩

/-- Settles O38: each access asks the live flag that it waits for. -/
theorem stallModeTransfers : Obligations.StallModeTransfers := by
  intro s d p31 q rest hopen hmode
  refine ⟨fun h => ?write, fun h => ?read⟩
  case write =>
    have haccess := (unlessLocked_of_open hopen (apbWriteDtrrx d)).trans (apbWriteDtrrx_stall d hmode)
    exact ⟨fun hfull => step_of_hold h (haccess.trans (if_pos hfull)),
      fun hempty => step_of_done h (haccess.trans (if_neg (by simp [hempty])))⟩
  case read =>
    have haccess := (unlessLocked_of_open hopen apbReadDtrtx).trans (apbReadDtrtx_stall hmode)
    exact ⟨fun hempty => step_of_hold h (haccess.trans (if_neg (by simp [hempty]))),
      fun hfull => step_of_done h (haccess.trans (if_pos hfull))⟩

/-- Settles O39: the flag that holds the access, then the two refusals, then the transfer with its issue. -/
theorem fastModeTransfersIssue : Obligations.FastModeTransfersIssue := by
  intro s d p31 q rest hopen hmode
  refine ⟨fun h => ?write, fun h => ?read⟩
  case write =>
    have haccess := (unlessLocked_of_open hopen (apbWriteDtrrx d)).trans (apbWriteDtrrx_fast d hmode)
    refine ⟨fun hfull => step_of_hold h (haccess.trans ?_), fun hempty hoff => step_of_refuse h (haccess.trans ?_),
      fun hempty hh hi hbusy => step_of_refuse h (haccess.trans ?_),
      fun hempty hh hi hidle => step_of_done h (haccess.trans ?_)⟩
    · rw [hfull]; rfl
    · rw [hempty]
      obtain hh | hi := hoff
      · rw [hh]; rfl
      · rw [hi, Bool.not_false, Bool.or_true]; rfl
    · rw [hempty, hh, hi, hbusy]; rfl
    · rw [hempty, hh, hi, hidle]; rfl
  case read =>
    have haccess := (unlessLocked_of_open hopen apbReadDtrtx).trans (apbReadDtrtx_fast hmode)
    refine ⟨fun hempty => step_of_hold h (haccess.trans ?_), fun hfull hoff => step_of_refuse h (haccess.trans ?_),
      fun hfull hh hi hbusy => step_of_refuse h (haccess.trans ?_),
      fun hfull hh hi hidle => step_of_done h (haccess.trans ?_)⟩
    · rw [hempty]; rfl
    · rw [hfull]
      obtain hh | hi := hoff
      · rw [hh]; rfl
      · rw [hi, Bool.not_false, Bool.or_true]; rfl
    · rw [hfull, hh, hi, hbusy]; rfl
    · rw [hfull, hh, hi, hidle]; rfl

/-! ### The write of DBGITR (R105, R110, R113) -/

/-- Settles O37: the two modes differ in the flag that gates the write and in what a clear one comes to. -/
theorem itrWriteIssues : Obligations.ItrWriteIssues := by
  intro s d p31 q rest gate h hopen hmode
  have haccess := unlessLocked_of_open hopen (apbWriteItr d)
  obtain ⟨hmode, rfl⟩ | ⟨hmode, rfl⟩ := hmode
  · replace haccess := haccess.trans (apbWriteItr_nonBlocking d hmode)
    refine ⟨fun hh => step_of_refuse h (haccess.trans ?_), fun hh hg _ => step_of_ignored h (haccess.trans ?_),
      fun _ _ hstall => absurd (hmode.symm.trans hstall) (by decide),
      fun hh hg hi => step_of_refuse h (haccess.trans ?_), fun hh hg hi => step_of_done h (haccess.trans ?_)⟩
    · rw [hh]; rfl
    · rw [hh, hg]; rfl
    · rw [hh, hg, hi]; rfl
    · rw [hh, hg, hi]; rfl
  · replace haccess := haccess.trans (apbWriteItr_stall d hmode)
    refine ⟨fun hh => step_of_refuse h (haccess.trans ?_),
      fun _ _ hnon => absurd (hmode.symm.trans hnon) (by decide),
      fun hh hg _ => step_of_hold h (haccess.trans ?_),
      fun hh hg hi => step_of_refuse h (haccess.trans ?_), fun hh hg hi => step_of_done h (haccess.trans ?_)⟩
    · rw [hh]; rfl
    · rw [hh, hg]; rfl
    · rw [hh, hg, hi]; rfl
    · rw [hh, hg, hi]; rfl

/-- Settles O40: the two tests of Fast mode, and then only the load. -/
theorem fastModeItrWriteOnlyLoads : Obligations.FastModeItrWriteOnlyLoads := by
  intro s d p31 q rest h hopen hmode
  have haccess := (unlessLocked_of_open hopen (apbWriteItr d)).trans (apbWriteItr_fast d hmode)
  refine ⟨fun hh => step_of_refuse h (haccess.trans ?_), fun hh hbusy => step_of_hold h (haccess.trans ?_),
    fun hh hidle => step_of_done h (haccess.trans ?_)⟩
  · rw [hh]; rfl
  · rw [hh, hbusy]; rfl
  · rw [hh, hidle]; rfl

/-! ### The held access (R119) -/

/-- A turn of the debugger answers its access when that no longer holds. -/
theorem step_answers_unless_hold {s t : State} {a : ApbAccess} {q : List ApbAccess} {rest : List Turn}
    (h : s.Accesses a q rest) (hstep : step s = .next t) (hne : apbAccess a s ≠ .hold) :
    ∃ (u : State) (r : ApbReply), t = u.answered q rest r := by
  cases ha : apbAccess a s with
  | done u r =>
    rw [step_of_done h ha] at hstep
    exact ⟨u, r, (Host.Outcome.next.inj hstep).symm⟩
  | ignored u r =>
    rw [step_of_ignored h ha] at hstep
    exact ⟨u, r, (Host.Outcome.next.inj hstep).symm⟩
  | hold => exact absurd ha hne
  | refuse e =>
    rw [step_of_refuse h ha] at hstep
    cases hstep

/-- Settles O41: no other agent touches the port, and a turn of the debugger makes the head of the queue. -/
theorem heldAccessKeepsThePort : Obligations.HeldAccessKeepsThePort := by
  intro s t a q hheld hq h
  refine ⟨fun hcase => ?stays, fun hne hd => ?goes⟩
  case stays =>
    by_cases hd : s.sched.head? = some .dbg
    · obtain ⟨rest, hs, -⟩ := dbgTurn_of_step h hd
      rw [step_of_hold ⟨hs, hq⟩ (hcase.resolve_right (not_not_intro hd))] at h
      cases h
      exact ⟨rfl, rfl, rfl⟩
    · obtain ⟨⟨-, hqueue, hportHeld, hreply⟩, -⟩ := step_samePort h hd
      exact ⟨hqueue, hportHeld.trans hheld, hreply⟩
  case goes =>
    obtain ⟨rest, hs, -⟩ := dbgTurn_of_step h hd
    obtain ⟨u, r, rfl⟩ := step_answers_unless_hold ⟨hs, hq⟩ h hne
    exact ⟨rfl, rfl⟩

/-! ### Debug events (42_hardware_events.md R146) and the write of DBGDRCR (R116 to R118) -/

theorem debugEvent_halting {s : State} {k : DebugKind} {code : BitVec 4} (hh : s.dscr.halted = false)
    (hm : s.debugMode = .halting) (hk : moeCode k = some code) : debugEvent k s = .ok (s.enterDebugState code) := by
  simp only [debugEvent, hh, hm, hk]
  rfl

theorem debugEvent_monitor {s : State} {k : DebugKind} {code : BitVec 4} {a : TrapKind}
    (hh : s.dscr.halted = false) (hm : s.debugMode = .monitor) (hk : moeCode k = some code)
    (ha : debugExceptionKind k = some a) : debugEvent k s = .ok (s.debugException code a) := by
  simp only [debugEvent, hh, hm, hk, ha]
  rfl

/-- The only refusal of a debug event. -/
theorem debugEvent_error {s : State} {k : DebugKind} {e : Refusal} (h : debugEvent k s = .error e) :
    e = .debugEventOutcomeNotInSource := by
  unfold debugEvent at h
  split at h
  · exact (Except.error.inj h).symm
  · split at h
    · exact (Except.error.inj h).symm
    · split at h
      · cases h
      · split at h
        · cases h
        · exact (Except.error.inj h).symm
      · exact (Except.error.inj h).symm

/-- Every combination to which the source gives no outcome (R146). -/
theorem debugEvent_refused {s : State} {k : DebugKind}
    (h : s.dscr.halted = true ∨ moeCode k = none ∨ s.debugMode = .noDebugMode ∨
      (s.debugMode ≠ .halting ∧ debugExceptionKind k = none)) :
    debugEvent k s = .error .debugEventOutcomeNotInSource := by
  cases he : debugEvent k s with
  | error e => rw [debugEvent_error he]
  | ok t =>
    obtain ⟨hh, code, hk, ⟨hm, -⟩ | ⟨hm, a, ha, -⟩⟩ := debugEvent_ok he
    · simp [hh, hk, hm] at h
    · simp [hh, hk, hm, ha] at h

theorem debugMode_halting {s : State} (hd : s.dbgen = true) (hp : s.dscr.haltProg = true) :
    s.debugMode = .halting := by
  rw [debugMode_eq, hd, hp]
  rfl

theorem debugMode_monitor {s : State} (hd : s.dbgen = true) (hp : s.dscr.haltProg = false)
    (hm : s.dscr.monProg = true) : s.debugMode = .monitor := by
  rw [debugMode_eq, hd, hp, hm]
  rfl

theorem debugMode_of_dbgen_low {s : State} (hd : s.dbgen = false) : s.debugMode = .noDebugMode := by
  rw [debugMode_eq, hd]
  rfl

theorem debugMode_of_no_enable {s : State} (hp : s.dscr.haltProg = false) (hm : s.dscr.monProg = false) :
    s.debugMode = .noDebugMode := by
  rw [debugMode_eq, hp, hm, Bool.and_false]
  rfl

theorem debugMode_ne_halting {s : State} (hp : s.dscr.haltProg = false) : s.debugMode ≠ .halting := by
  rw [debugMode_eq, hp, Bool.and_false]
  cases s.dbgen && s.dscr.monProg <;> decide

/-- The clears of a DBGDRCR write, bit by bit of its data. -/
theorem drcrClear_eq (f : DscrState) (d : Word) :
    f.drcrClear d = { f with
      pipeadv := if d.getLsbD 3 then false else f.pipeadv
      stickyUnd := if d.getLsbD 2 then false else f.stickyUnd
      stickyAabt := if d.getLsbD 2 then false else f.stickyAabt
      stickySabt := if d.getLsbD 2 then false else f.stickySabt } := by
  have hclear : ∀ b c : Bool, (b && !c) = if c then false else b := by decide
  simp only [DscrState.drcrClear, hclear]

/-- A write of DBGDRCR with bit 0 clear only clears. -/
theorem apbWriteDrcr_clears {s : State} {d : Word} (h : d.getLsbD 0 = false) :
    apbWriteDrcr d s = .done (s.withDscr (s.dscr.drcrClear d)) .written := by
  rw [apbWriteDrcr, h]
  rfl

/-- With bit 0 set it enters debug state where the halting debug event does. -/
theorem apbWriteDrcr_halts {s : State} {d : Word} (h : d.getLsbD 0 = true) (hh : s.dscr.halted = false)
    (hm : s.debugMode = .halting) :
    apbWriteDrcr d s = .done ((s.withDscr (s.dscr.drcrClear d)).enterDebugState 0b0000#4) .written := by
  have hevent := debugEvent_halting (s := s.withDscr (s.dscr.drcrClear d)) (k := .haltRequest) hh hm rfl
  simp only [apbWriteDrcr, h, if_true, hevent]

/-- With bit 0 set it is refused where the halting debug event has no outcome. -/
theorem apbWriteDrcr_refused {s : State} {d : Word} (h : d.getLsbD 0 = true)
    (hno : s.dscr.halted = true ∨ s.debugMode ≠ .halting) :
    apbWriteDrcr d s = .refuse .debugEventOutcomeNotInSource := by
  have hevent := debugEvent_refused (s := s.withDscr (s.dscr.drcrClear d)) (k := .haltRequest)
    (hno.imp id fun hm => .inr (.inr ⟨hm, rfl⟩))
  simp only [apbWriteDrcr, h, if_true, hevent]

/-- Settles O44: no event is raised, and the clears are those of the two bits. -/
theorem drcrWriteClears : Obligations.DrcrWriteClears := by
  intro s d p31 q rest h hopen hb
  rw [step_of_done h ((unlessLocked_of_open hopen (apbWriteDrcr d)).trans (apbWriteDrcr_clears hb)), drcrClear_eq]
  rfl

/-- Settles O45: the halting debug event is raised in the record already cleared, which has the same debug-mode. -/
theorem haltRequestEntersDebugState : Obligations.HaltRequestEntersDebugState := by
  intro s d p31 q rest h hopen hb
  have haccess := unlessLocked_of_open hopen (apbWriteDrcr d)
  refine ⟨fun hh hd hp => ?enters, fun hno => step_of_refuse h (haccess.trans (apbWriteDrcr_refused hb ?refused))⟩
  case enters =>
    rw [step_of_done h (haccess.trans (apbWriteDrcr_halts hb hh (debugMode_halting hd hp))), drcrClear_eq]
    rfl
  case refused =>
    refine hno.imp id fun hoff => ?_
    obtain hd | hp := hoff
    · rw [debugMode_of_dbgen_low hd]
      decide
    · exact debugMode_ne_halting hp

end Sys2Proof.Machine
end

section
/-! SUPPORT. The events of the processor (42_hardware_events.md): the DTR transfers, debug events, the exit, the
exceptions of debug state and the completion of an issued instruction. -/

namespace Sys2Proof.Machine

/-- The step that the schedule gives to an event is refused as the event is. -/
theorem step_of_eventStep_error {s : State} {e : Event} {rest : List Turn} {r : Refusal}
    (hn : s.Next (.event e) rest) (he : eventStep e { s with sched := rest } = .error r) : step s = .refused r := by
  rw [step_of_next_event hn, eventTurn, he]

/-! ### When a DTR transfer may come, and the stage after it (R141, R142, R150) -/

theorem dtrTransferEnabled_normal {s : State} (hh : s.dscr.halted = false) : dtrTransferEnabled s = true := by
  rw [dtrTransferEnabled, hh]
  rfl

theorem dtrTransferEnabled_issued {s : State} {w : Word} {r : DecodeReject} (hh : s.dscr.halted = true)
    (hi : s.issue = .begun w) (hd : decodeWord w = .error r) (hc : s.dscr.instrcompl = false) :
    dtrTransferEnabled s = true := by
  simp [dtrTransferEnabled, hh, hi, hd, hc]

/-- In debug state nothing but a word of neither row, begun and not complete, makes a transfer (log entry 16). -/
theorem dtrTransferEnabled_eq_false {s : State} (hh : s.dscr.halted = true)
    (h : s.dscr.instrcompl = true ∨ s.issue = .idle ∨ s.issue = .executed ∨ s.issue = .excepted ∨
      ∃ w i, s.issue = .begun w ∧ decodeWord w = .ok i) : dtrTransferEnabled s = false := by
  obtain hc | hi | hi | hi | ⟨w, i, hi, hd⟩ := h
  · cases hi : s.issue <;> simp [dtrTransferEnabled, hh, hc, hi]
  · simp [dtrTransferEnabled, hh, hi]
  · simp [dtrTransferEnabled, hh, hi]
  · simp [dtrTransferEnabled, hh, hi]
  · simp [dtrTransferEnabled, hh, hi, hd]

theorem stage_of_normal {s : State} (hh : s.dscr.halted = false) :
    (if s.dscr.halted then s.issue.execute else s.issue) = s.issue := by
  rw [hh]
  rfl

theorem stage_of_issued {s : State} {w : Word} (hh : s.dscr.halted = true) (hi : s.issue = .begun w) :
    (if s.dscr.halted then s.issue.execute else s.issue) = .executed := by
  rw [hh, hi]
  rfl

/-- The trap in normal state: it waits, and nothing else changes. -/
theorem takeException_normal {s : State} (hh : s.dscr.halted = false) :
    s.takeException .undefinedInstruction =
      { s with handover := s.handover ++ [⟨.undefinedInstruction, s.pc⟩] } := by
  rw [takeException_undefined, hh, Bool.or_false]
  rfl

/-- The trap of an issued instruction: it sets `sticky_und` and ends the instruction. -/
theorem takeException_issued {s : State} {w : Word} (hh : s.dscr.halted = true) (hi : s.issue = .begun w) :
    s.takeException .undefinedInstruction = { s with
      handover := s.handover ++ [⟨.undefinedInstruction, s.pc⟩]
      dscr := { s.dscr with stickyUnd := true }
      issue := .excepted } := by
  rw [takeException_undefined, hh, hi, Bool.or_true]
  rfl

/-! ### The transfers themselves -/

section
variable {s : State}

/-- The read that takes place, with the stage `g` that it leaves. -/
theorem procReadDtrrx_done {g : IssueStage} (rd : Fin 15) (he : dtrTransferEnabled s = true)
    (ha : accessPermitted s .read = true) (hg : (if s.dscr.halted then s.issue.execute else s.issue) = g) :
    procReadDtrrx rd s = .ok { s with
      x := s.x.set rd.val (if s.dscr.rxfull then s.dtrrx else Config.freeWord s.draws)
      dscr := { s.dscr with rxfull := false }
      issue := g
      draws := s.draws + 1 } := by
  subst hg
  simp only [procReadDtrrx, he, ha]
  rfl

theorem procReadDtrrx_trap (rd : Fin 15) (he : dtrTransferEnabled s = true) (ha : accessPermitted s .read = false) :
    procReadDtrrx rd s = .ok (s.takeException .undefinedInstruction) := by
  simp only [procReadDtrrx, he, ha]
  rfl

theorem procReadDtrrx_disabled (rd : Fin 15) (he : dtrTransferEnabled s = false) :
    procReadDtrrx rd s = .error .eventNotEnabled := by
  simp only [procReadDtrrx, he]
  rfl

/-- The write that takes place, with the stage `g` that it leaves. -/
theorem procWriteDtrtx_done {g : IssueStage} (v : Word) (he : dtrTransferEnabled s = true)
    (ha : accessPermitted s .write = true) (hg : (if s.dscr.halted then s.issue.execute else s.issue) = g) :
    procWriteDtrtx v s =
      .ok { s with dtrtx := v, dscr := { s.dscr with txfull := true }, issue := g } := by
  subst hg
  simp only [procWriteDtrtx, he, ha]
  rfl

theorem procWriteDtrtx_trap (v : Word) (he : dtrTransferEnabled s = true) (ha : accessPermitted s .write = false) :
    procWriteDtrtx v s = .ok (s.takeException .undefinedInstruction) := by
  simp only [procWriteDtrtx, he, ha]
  rfl

theorem procWriteDtrtx_disabled (v : Word) (he : dtrTransferEnabled s = false) :
    procWriteDtrtx v s = .error .eventNotEnabled := by
  simp only [procWriteDtrtx, he]
  rfl

/-- When the access check forbids a write in User mode (60_exceptions.md R171). -/
theorem accessPermitted_write_user (hu : s.user = true)
    (h : s.dscr.comms = true ∨ s.cfg.userDscrWrite = .undefinedInstruction) : accessPermitted s .write = false :=
  h.elim (accessPermitted_comms _ hu) (accessPermitted_undefined hu)

end

/-- Settles O46: the transfer is enabled in normal state, and the access check chooses between it and the trap. -/
theorem processorReadsDtrrx : Obligations.ProcessorReadsDtrrx := by
  intro s rd rest hn hh
  have he : dtrTransferEnabled { s with sched := rest } = true := dtrTransferEnabled_normal hh
  have htrap := takeException_normal (s := { s with sched := rest }) hh
  exact ⟨fun ha => step_of_eventStep hn (procReadDtrrx_done rd he (accessPermitted_read ha) (stage_of_normal hh)),
    fun hu hc => step_of_eventStep hn
      ((procReadDtrrx_trap rd he (accessPermitted_comms _ hu hc)).trans (congrArg Except.ok htrap))⟩

/-- Settles O47: as for the read, with the write branch of the access check. -/
theorem processorWritesDtrtx : Obligations.ProcessorWritesDtrtx := by
  intro s v rest hn hh
  have he : dtrTransferEnabled { s with sched := rest } = true := dtrTransferEnabled_normal hh
  have htrap := takeException_normal (s := { s with sched := rest }) hh
  exact ⟨fun ha => step_of_eventStep hn (procWriteDtrtx_done v he (accessPermitted_write ha) (stage_of_normal hh)),
    fun hu hc => step_of_eventStep hn
      ((procWriteDtrtx_trap v he (accessPermitted_write_user hu hc)).trans (congrArg Except.ok htrap))⟩

/-- Settles O48: an issued word of neither row enables the transfers, which end its stage; nothing else does. -/
theorem dtrTransfersFromDbgitr : Obligations.DtrTransfersFromDbgitr := by
  intro s rest hh
  refine ⟨fun w r hi hd hc => ?issued, fun e hn hkind hoff => ?disabled⟩
  case issued =>
    have he : dtrTransferEnabled { s with sched := rest } = true := dtrTransferEnabled_issued hh hi hd hc
    refine ⟨fun rd hn ha => step_of_eventStep hn ?read, fun v hn ha => step_of_eventStep hn ?write,
      fun e hn hu hkind => step_of_eventStep hn ?trap⟩
    case read => exact procReadDtrrx_done rd he (accessPermitted_read ha) (stage_of_issued hh hi)
    case write => exact procWriteDtrtx_done v he (accessPermitted_write ha) (stage_of_issued hh hi)
    case trap =>
      have htrap := takeException_issued (s := { s with sched := rest }) hh hi
      obtain ⟨⟨rd, rfl⟩, hforbid⟩ | ⟨⟨v, rfl⟩, hforbid⟩ := hkind
      · exact (procReadDtrrx_trap rd he (accessPermitted_comms _ hu hforbid)).trans (congrArg Except.ok htrap)
      · exact (procWriteDtrtx_trap v he (accessPermitted_write_user hu hforbid)).trans (congrArg Except.ok htrap)
  case disabled =>
    have he : dtrTransferEnabled { s with sched := rest } = false := dtrTransferEnabled_eq_false hh hoff
    obtain ⟨rd, rfl⟩ | ⟨v, rfl⟩ := hkind
    · exact step_of_eventStep_error hn (procReadDtrrx_disabled rd he)
    · exact step_of_eventStep_error hn (procWriteDtrtx_disabled v he)

/-! ### Debug events (R146, R147) -/

/-- A debug exception of normal state, written out: it records its cause and waits. -/
theorem debugException_normal {s : State} (code : BitVec 4) {a : TrapKind} (hh : s.dscr.halted = false)
    (ha : a ≠ .undefinedInstruction) :
    s.debugException code a = { s with
      dscr := { s.dscr with moe := code }
      handover := s.handover ++ [⟨a, s.pc⟩] } := by
  simp [State.debugException, State.takeException, hh, ha]

/-- Settles O49: the listed kinds with their codes and aborts, and every other combination. -/
theorem debugEventOutcome : Obligations.DebugEventOutcome := by
  intro s rest
  refine ⟨fun p hp hn hh hd hprog => step_of_eventStep hn ?halting,
    fun p hp hn hh hd hprog hmon => step_of_eventStep hn ?monitor, fun k hn hno => step_of_eventStep_error hn ?refused⟩
  case halting =>
    have hcode : ∀ p ∈ [(DebugKind.haltRequest, 0b0000#4), (.breakpoint, 0b0001#4), (.bkptInstruction, 0b0011#4),
      (.externalRequest, 0b0100#4), (.syncWatchpoint, 0b1010#4)], moeCode p.1 = some p.2 := by decide
    exact debugEvent_halting (s := { s with sched := rest }) hh (debugMode_halting hd hprog) (hcode p hp)
  case monitor =>
    have hkind : ∀ p ∈ [(DebugKind.breakpoint, 0b0001#4, TrapKind.prefetchAbort),
      (.bkptInstruction, 0b0011#4, .prefetchAbort), (.syncWatchpoint, 0b1010#4, .dataAbort)],
      moeCode p.1 = some p.2.1 ∧ debugExceptionKind p.1 = some p.2.2 := by decide
    obtain ⟨hcode, habort⟩ := hkind p hp
    have hexc := debugException_normal (s := { s with sched := rest }) p.2.1 hh (debugExceptionKind_ne habort)
    exact (debugEvent_monitor (s := { s with sched := rest }) hh (debugMode_monitor hd hprog hmon) hcode
      habort).trans (congrArg Except.ok hexc)
  case refused =>
    refine debugEvent_refused (s := { s with sched := rest }) ?_
    obtain hh | hd | ⟨hprog, hmon⟩ | ⟨hprog, hkind⟩ | ⟨code, rfl⟩ := hno
    · exact .inl hh
    · exact .inr (.inr (.inl (debugMode_of_dbgen_low hd)))
    · exact .inr (.inr (.inl (debugMode_of_no_enable hprog hmon)))
    · refine .inr (.inr (.inr ⟨debugMode_ne_halting hprog, ?_⟩))
      obtain rfl | rfl := hkind <;> rfl
    · exact .inr (.inl rfl)

/-! ### The exit (R144, R145) -/

/-- Settles O50: each branch of the two events. -/
theorem exitFromDebugState : Obligations.ExitFromDebugState := by
  intro s rest
  refine ⟨fun hn => ⟨fun hh => step_of_eventStep hn (if_pos hh),
      fun hh => step_of_eventStep_error hn (if_neg (by simp [hh]))⟩,
    fun hn => ⟨fun hh hr hi => step_of_eventStep hn ?completes, fun hh hr hi => step_of_eventStep_error hn ?itrEn,
      fun hoff => step_of_eventStep_error hn ?disabled⟩⟩
  case completes => simp [eventStep, completeExit, hh, hr, hi]
  case itrEn => simp [eventStep, completeExit, hh, hr, hi]
  case disabled =>
    refine if_neg ?_
    obtain hh | hr := hoff
    · simp [hh]
    · simp [hr]

/-! ### Exceptions and completion (R148, R149, R151, R152) -/

theorem asyncAbort_discarded {s : State} (ends : Bool) (hh : s.dscr.halted = true) (ha : s.dscr.adadiscard = true) :
    s.asyncAbort ends = { s with dscr := { s.dscr with stickyAabt := true } } := by
  simp only [State.asyncAbort, hh, ha, if_true]
  rfl

theorem asyncAbort_taken {s : State} (ends : Bool) (hh : s.dscr.halted = true) (ha : s.dscr.adadiscard = false) :
    s.asyncAbort ends = { s with
      dscr := { s.dscr with stickyAabt := true }
      handover := s.handover ++ [⟨.asyncDataAbort, s.pc⟩]
      issue := if ends then s.issue.except else s.issue } := by
  simp [State.asyncAbort, State.normalAbort, hh, ha]

theorem asyncAbort_normal {s : State} (ends : Bool) (hh : s.dscr.halted = false) :
    s.asyncAbort ends = { s with handover := s.handover ++ [⟨.asyncDataAbort, s.pc⟩] } := by
  simp [State.asyncAbort, State.normalAbort, hh]

/-- Settles O51: each event in debug state, and the asynchronous abort in normal state too. -/
theorem exceptionsInDebugState : Obligations.ExceptionsInDebugState := by
  intro s rest
  refine ⟨fun hn hh => step_of_eventStep hn (if_pos hh), fun hn hh => step_of_eventStep hn (if_pos hh),
    fun ends hn => ⟨fun hh ha => step_of_eventStep hn (congrArg Except.ok ?discarded),
      fun hh ha => step_of_eventStep hn (congrArg Except.ok ?taken),
      fun hh => step_of_eventStep hn (congrArg Except.ok ?normal)⟩⟩
  case discarded => exact asyncAbort_discarded (s := { s with sched := rest }) ends hh ha
  case taken => exact asyncAbort_taken (s := { s with sched := rest }) ends hh ha
  case normal => exact asyncAbort_normal (s := { s with sched := rest }) ends hh

/-- Settles O52: each stage of the issued instruction, and the precondition. -/
theorem issueCompletion : Obligations.IssueCompletion := by
  intro s rest hn
  refine ⟨fun hh hc => ⟨fun hi => step_of_eventStep hn ?retires, fun hi => step_of_eventStep hn ?excepted,
    fun w i hi hd => step_of_eventStep_error hn ?waits, fun w r hi hd => step_of_eventStep_error hn ?otherWord⟩,
    fun hoff => step_of_eventStep_error hn (if_neg ?disabled)⟩
  case retires =>
    obtain hi | hi := hi
    · simp [eventStep, issueComplete, hh, hc, hi, State.retire]
    · simp [eventStep, issueComplete, hh, hc, hi, State.retire]
  case excepted => simp [eventStep, issueComplete, hh, hc, hi]
  case waits => simp [eventStep, issueComplete, hh, hc, hi, hd]
  case otherWord => simp [eventStep, issueComplete, hh, hc, hi, hd]
  case disabled =>
    obtain hh | hc := hoff
    · simp [hh]
    · simp [hc]

end Sys2Proof.Machine
end

section
/-! SUPPORT. The two resets (70_reset_and_hazards.md R191 to R194), and sessions of more than one step: a poll, a held
write, an instruction run through DBGITR (95_test_vectors.md). -/

namespace Sys2Proof.Machine

/-! ### The resets -/

/-- Settles O56: the event is the record update of R191. -/
theorem debugResetValues : Obligations.DebugResetValues := by
  intro s rest hn
  exact ⟨_, step_of_eventStep hn rfl, rfl, rfl, rfl, rfl, rfl, rfl, rfl, rfl, rfl, rfl, rfl, rfl⟩

theorem underReset_keeping {s : State} (h : s.cfg.procResetResetsControl = false) :
    s.underReset = s.resetProcessor := by
  rw [State.underReset, h]
  rfl

theorem underReset_resetting {s : State} (h : s.cfg.procResetResetsControl = true) :
    s.underReset = s.resetProcessor.debugReset := by
  rw [State.underReset, h]
  rfl

theorem processorReset_of_itrEn {s : State} (h : s.underReset.dscr.itrEn = true) :
    processorReset s = .error .itrEnOutsideDebugState := by
  rw [processorReset, if_pos h]

theorem processorReset_done {s : State} (h : s.underReset.dscr.itrEn = false) :
    processorReset s = .ok s.underReset.leaveReset := by
  rw [processorReset, h]
  rfl

/-- A debug reset and bits 1:0 of a processor reset leave the stated fields powered up, whatever is drawn (R194). -/
theorem poweredUp_of_both_resets (f : DscrState) (d : Word) :
    ({ f.debugReset d with restarted := true, halted := false } : DscrState).PoweredUp :=
  ⟨rfl, rfl, rfl, rfl, rfl, rfl, rfl, rfl, rfl, rfl, rfl⟩

/-- Settles O57: the parameter chooses whether the debug unit is reset under the processor's reset. -/
theorem processorResetValues : Obligations.ProcessorResetValues := by
  intro s rest hn
  refine ⟨fun hp hi => step_of_eventStep_error hn (processorReset_of_itrEn ?refused),
    fun hp hi => ?keeps, fun hp => ?resets⟩
  case refused =>
    rw [underReset_dscr, hp]
    exact hi
  case keeps =>
    have hunder := underReset_keeping (s := { s with sched := rest }) hp
    refine ⟨_, step_of_eventStep hn (processorReset_done (by rw [hunder]; exact hi)), ?_, ?_⟩
    · rw [hunder]
      simp
    · rw [hunder]
      simp only [State.resetProcessor, State.leaveReset]
  case resets =>
    have hunder := underReset_resetting (s := { s with sched := rest }) hp
    refine ⟨_, step_of_eventStep hn (processorReset_done (by rw [hunder]; rfl)), ?_, ?_⟩
    · rw [hunder]
      exact poweredUp_of_both_resets _ _
    · rw [hunder]
      simp only [State.resetProcessor, State.debugReset, State.leaveReset]

/-- A debug reset of a record in normal state powers it up. -/
theorem debugReset_poweredUp {f : DscrState} (d : Word) (hr : f.restarted = true) (hh : f.halted = false) :
    (f.debugReset d).PoweredUp :=
  ⟨rfl, rfl, rfl, rfl, rfl, rfl, rfl, rfl, rfl, hr, hh⟩

/-- The processor reset leaves the schedule alone. -/
theorem processorReset_sched {s t : State} (h : processorReset s = .ok t) : t.sched = s.sched := by
  obtain ⟨-, rfl⟩ := processorReset_ok h
  unfold State.underReset
  split <;> simp

theorem poweredUp_after_processor_then_debug {s u t : State} {rest : List Turn}
    (hs : s.Next (.event .processorReset) (.event .debugReset :: rest)) (hu : step s = .next u)
    (ht : step u = .next t) : t.dscr.PoweredUp := by
  have hreset := eventStep_of_step hs hu
  obtain ⟨hr, hh⟩ := processorReset_runState hreset
  cases eventStep_of_step (e := .debugReset) (rest := rest) (processorReset_sched hreset) ht
  exact debugReset_poweredUp _ hr hh

theorem poweredUp_after_debug_then_processor {s u t : State} {rest : List Turn}
    (hs : s.Next (.event .debugReset) (.event .processorReset :: rest)) (hu : step s = .next u)
    (ht : step u = .next t) : t.dscr.PoweredUp := by
  have hreset := eventStep_of_step hs hu
  have hnext : u.Next (.event .processorReset) rest := by cases hreset; rfl
  obtain ⟨-, rfl⟩ := processorReset_ok (eventStep_of_step hnext ht)
  cases hreset
  rw [State.leaveReset_dscr, underReset_dscr]
  split
  · exact poweredUp_of_both_resets _ _
  · exact poweredUp_of_both_resets _ _

/-- The powered-up view, but for the bits that the spec leaves unspecified (R53). -/
theorem dscrCp14_of_poweredUp {s : State} (h : s.dscr.PoweredUp) (hlive : s.cfg.cp14LatchView = .live) (d : Word) :
    dscrCp14 s d &&& ~~~0x030801FC#32 = 0x00000002#32 := by
  have hor : ∀ a b : Word, (a ||| b) &&& ~~~0x030801FC#32 = (a &&& ~~~0x030801FC#32) ||| (b &&& ~~~0x030801FC#32) := by
    intro a b
    rw [BitVec.and_comm, BitVec.and_or_distrib_left, BitVec.and_comm _ a, BitVec.and_comm _ b]
  have hbits : ∀ b : Bool, bitAt 25 b &&& ~~~0x030801FC#32 = 0#32 ∧ bitAt 24 b &&& ~~~0x030801FC#32 = 0#32 ∧
      bitAt 19 b &&& ~~~0x030801FC#32 = 0#32 ∧ bitAt 8 b &&& ~~~0x030801FC#32 = 0#32 ∧
      bitAt 7 b &&& ~~~0x030801FC#32 = 0#32 ∧ bitAt 6 b &&& ~~~0x030801FC#32 = 0#32 := by decide
  have hmoe : ∀ f : BitVec 4, (f.zeroExtend 32 <<< 2) &&& ~~~0x030801FC#32 = 0#32 := by decide
  have hclear : ∀ i : Nat, bitAt i false = 0#32 := fun _ => rfl
  rw [dscrCp14_eq]
  simp only [hlive, if_true, dscrView, State.monEn, State.haltEn, h.rxfull, h.txfull, h.dtrAccess, h.monProg,
    h.haltProg, h.itrEn, h.comms, h.intdis, h.dbgack, h.restarted, h.halted, Bool.and_false, hclear, hor, hbits, hmoe]
  decide

/-- Settles O58: either order powers the record up, and the rest is read from it. -/
theorem powerUpState : Obligations.PowerUpState := by
  intro s t rest e e' horder hs hrun
  obtain ⟨u, hu, hrun⟩ := (run_succ_next 1 s t).1 hrun
  obtain ⟨v, hv, hrun⟩ := (run_succ_next 0 u t).1 hrun
  obtain rfl := (run_zero_next v t).1 hrun
  have hup : v.dscr.PoweredUp := by
    obtain ⟨rfl, rfl⟩ | ⟨rfl, rfl⟩ := horder
    · exact poweredUp_after_processor_then_debug hs hu hv
    · exact poweredUp_after_debug_then_processor hs hu hv
  obtain ⟨hirq, hfiq⟩ := interrupts_shown hup.intdis
  exact ⟨hup, debugMode_of_no_enable hup.haltProg hup.monProg, hirq, hfiq,
    fun hlive d => dscrCp14_of_poweredUp hup hlive d⟩

/-! ### Runs of several steps -/

/-- A run whose first step is known goes on from there. -/
theorem run_succ_of_step {s u t : State} {n : Nat} (h : step s = .next u) (hrun : Sys2Proof.core.run n u = .next t) :
    Sys2Proof.core.run (n + 1) s = .next t :=
  (run_succ_next n s t).2 ⟨u, h, hrun⟩

/-- Settles O42: the processor's read empties the register, and the held write then transfers. -/
theorem heldWriteFiresWhenTheProcessorReads : Obligations.HeldWriteFiresWhenTheProcessorReads := by
  intro s d p31 rd q rest hq hopen hmode hfull hh ha hs
  obtain ⟨hread, -⟩ := processorReadsDtrrx s rd (.dbg :: rest) hs hh
  have hfirst := hread ha
  rw [if_pos hfull] at hfirst
  obtain ⟨hwrite, -⟩ := stallModeTransfers
    { s with
      x := s.x.set rd.val s.dtrrx, dscr := { s.dscr with rxfull := false }, draws := s.draws + 1,
      sched := .dbg :: rest } d p31 q rest hopen hmode
  obtain ⟨-, hsecond⟩ := hwrite ⟨rfl, hq⟩
  exact run_succ_of_step hfirst (run_succ_of_step (hsecond rfl) rfl)

/-- The value that a read of DBGDSCR gives shows the latches it leaves, whether it latches or not, and in debug state
the latched complete flag too (R51, R101, D9). -/
theorem dscrApb_latchForRead (s : State) (p31 : Bool) (d : Word) :
    (dscrApb (s.latchForRead p31) p31 d).getLsbD 27 = (s.latchForRead p31).dscr.rxfullL ∧
      (dscrApb (s.latchForRead p31) p31 d).getLsbD 26 = (s.latchForRead p31).dscr.txfullL ∧
      (s.dscr.halted = true →
        (dscrApb (s.latchForRead p31) p31 d).getLsbD 24 = (s.latchForRead p31).dscr.instrcomplL) := by
  rw [dscrApb_eq_dscrView, dscrView_bit27, dscrView_bit26, dscrView_bit24]
  by_cases hlatch : s.locked = false ∨ p31 = true ∨ s.cfg.lockedReadLatches = true
  · rw [latchForRead_of_latching hlatch]
    exact ⟨ite_self _, ite_self _, fun hh => if_pos hh⟩
  · simp only [not_or, Bool.not_eq_false, Bool.not_eq_true] at hlatch
    obtain ⟨hl, hp, hc⟩ := hlatch
    rw [latchForRead_of_quiet hl hp hc]
    exact ⟨if_pos ⟨hl, hp⟩, if_pos ⟨hl, hp⟩, fun hh => if_pos hh⟩

/-- What a read of DBGDSCR leaves of the fields that an access behind it asks. -/
theorem latchForRead_keeps (s : State) (p31 : Bool) :
    (s.latchForRead p31).locked = s.locked ∧ (s.latchForRead p31).dtrtx = s.dtrtx ∧
      (s.latchForRead p31).dscr.dtrAccess = s.dscr.dtrAccess ∧ (s.latchForRead p31).dscr.halted = s.dscr.halted ∧
      (s.latchForRead p31).dscr.itrEn = s.dscr.itrEn := by
  unfold State.latchForRead
  split <;> exact ⟨rfl, rfl, rfl, rfl, rfl⟩

/-- What a poll leaves to the access behind it, and what its value tells of the flags that gate that access. -/
structure Polled (s t : State) (a : ApbAccess) (q : List ApbAccess) (rest : List Turn) (v : Word) : Prop where
  accesses : t.Accesses a q rest
  locked : t.locked = s.locked
  dtrtx : t.dtrtx = s.dtrtx
  mode : t.dscr.dtrAccess = s.dscr.dtrAccess
  halted : t.dscr.halted = s.dscr.halted
  itrEn : t.dscr.itrEn = s.dscr.itrEn
  bit27 : v.getLsbD 27 = t.dscr.rxfullL
  bit26 : v.getLsbD 26 = t.dscr.txfullL
  bit24 : s.dscr.halted = true → v.getLsbD 24 = t.dscr.instrcomplL

theorem polled_of_step {s t : State} {p31 : Bool} {a : ApbAccess} {q : List ApbAccess} {rest : List Turn} {v : Word}
    (h : s.Accesses (.readDscr p31) (a :: q) (.dbg :: rest)) (hpoll : step s = .next t)
    (hv : t.reply = some (.value v)) : Polled s t a q rest v := by
  have hstep : step s = _ := step_of_done h (rfl : apbAccess (.readDscr p31) s = .done _ _)
  rw [hstep] at hpoll
  cases hpoll
  cases hv
  obtain ⟨h27, h26, h24⟩ := dscrApb_latchForRead s p31 s.draw
  obtain ⟨hlocked, hdtrtx, hmode, hhalted, hitrEn⟩ := latchForRead_keeps s p31
  exact ⟨⟨rfl, rfl⟩, hlocked, hdtrtx, hmode, hhalted, hitrEn, h27, h26, h24⟩

/-- The next state of a step whose outcome one bit decides. -/
theorem next_eq_ite {t u x y : State} {b : Bool} (h : step t = .next u) (hset : b = true → step t = .next x)
    (hclear : b = false → step t = .next y) : u = if b then x else y := by
  cases b with
  | true => exact Host.Outcome.next.inj (h.symm.trans (hset rfl))
  | false => exact Host.Outcome.next.inj (h.symm.trans (hclear rfl))

/-- Settles O43: the value polled shows the latches, which gate the access of the next step. -/
theorem pollShowsWhetherTheAccessLands : Obligations.PollShowsWhetherTheAccessLands := by
  intro s t u p31 p31' a q rest v hmode hopen h hpoll hv hstep
  have hp := polled_of_step h hpoll hv
  have hacc := hp.accesses
  rw [← hp.mode] at hmode
  rw [← hp.locked] at hopen
  refine ⟨fun d ha => ?dtrrx, fun ha => ?dtrtx, fun d ha hh hi => ?itr⟩
  case dtrrx =>
    subst ha
    obtain ⟨hset, hclear⟩ := nonBlockingDtrrxWrite t d p31' q rest hacc hopen hmode
    rw [hp.bit27]
    exact next_eq_ite hstep hset hclear
  case dtrtx =>
    subst ha
    obtain ⟨hclear, hset⟩ := nonBlockingDtrtxRead t p31' q rest hacc hopen hmode
    rw [hp.bit26, ← hp.dtrtx]
    exact next_eq_ite hstep hset hclear
  case itr =>
    subst ha
    obtain ⟨-, hclear, -, -, hset⟩ := itrWriteIssues t d p31' q rest _ hacc hopen (.inl ⟨hmode, rfl⟩)
    rw [hp.bit24 hh]
    rw [← hp.halted] at hh
    rw [← hp.itrEn] at hi
    exact next_eq_ite hstep (fun hb => hset hh hb hi) fun hb => hclear hh hb hmode

/-- The processor's turn on an MRC issued through DBGITR and not yet executed. -/
theorem step_of_issued_mrc {s : State} {i : Fin 15} {rest : List Turn} (hs : s.ProcNext rest)
    (hh : s.dscr.halted = true) (hi : s.issue = .begun (encode (.mrcDbgdscr 0b1110#4 (.gpr i))))
    (hc : s.dscr.instrcompl = false) (ha : s.user = false ∨ s.dscr.comms = false) :
    step s = .next { s with
      x := s.x.set i.val (dscrCp14 s (Config.freeWord s.draws))
      dscr := { s.dscr with pipeadv := true }
      issue := .executed
      draws := s.draws + 1
      sched := rest } := by
  obtain ⟨-, hrun⟩ := stepRunsTheDecodedInstruction s (.mrcDbgdscr 0b1110#4 (.gpr i)) rest hs
  rw [hrun _ hh hi hc (decodeWord_encode rfl),
    mrcReadsTheRegister { s with sched := rest } 0b1110#4 i (by decide) rfl ha]
  simp only [hh, hi, if_true]
  rfl

/-- The completion of an instruction that has had its effect. -/
theorem step_of_issueComplete_executed {s : State} {rest : List Turn} (hn : s.Next (.event .issueComplete) rest)
    (hh : s.dscr.halted = true) (hc : s.dscr.instrcompl = false) (hi : s.issue = .executed) :
    step s = .next
      { s with dscr := { s.dscr with instrcompl := true, pipeadv := true }, issue := .idle, sched := rest } := by
  obtain ⟨hdone, -⟩ := issueCompletion s rest hn
  obtain ⟨hretires, -⟩ := hdone hh hc
  exact hretires (.inl hi)

/-- The three steps of an MRC run through DBGITR: the write that issues it, the turn that runs it, its completion. -/
theorem run_issued_mrc {s : State} {i : Fin 15} {p31 : Bool} {q : List ApbAccess} {rest : List Turn}
    (h : s.Accesses (.writeItr (encode (.mrcDbgdscr 0b1110#4 (.gpr i))) p31) q
      (.proc :: .event .issueComplete :: rest))
    (hopen : s.locked = false ∨ p31 = true) (hmode : s.dscr.dtrAccess = 0b01#2) (hh : s.dscr.halted = true)
    (hitr : s.dscr.itrEn = true) (hidle : s.dscr.instrcompl = true)
    (ha : s.user = false ∨ s.dscr.comms = false) :
    ∃ t, Sys2Proof.core.run 3 s = .next t ∧
      t.x[i.val] = dscrCp14 { s with dscr := { s.dscr with instrcomplL := false } } (Config.freeWord s.draws) ∧
      t.pc = s.pc ∧ t.dscr = { s.dscr with instrcompl := true, instrcomplL := false, pipeadv := true } ∧
      t.issue = .idle ∧ t.dbgQueue = q ∧ t.reply = some .written := by
  obtain ⟨-, -, -, -, hissue⟩ := itrWriteIssues s _ p31 q _ _ h hopen (.inr ⟨hmode, rfl⟩)
  exact ⟨_, run_succ_of_step (hissue hh hidle hitr) (run_succ_of_step
    (step_of_issued_mrc (.inr rfl) hh rfl rfl ha)
    (run_succ_of_step (step_of_issueComplete_executed rfl hh rfl rfl) rfl)), Vector.getElem_set_self _, rfl, rfl, rfl,
    rfl, rfl⟩

/-- Settles O59: the register holds the view, whose bit 24 is the latch that the issue cleared. -/
theorem issuedMrcReturnsTheView : Obligations.IssuedMrcReturnsTheView := by
  intro s i p31 q rest h hopen hmode hh hitr hidle ha
  obtain ⟨t, hrun, hx, hpc, hdscr, hstage, hqueue, hreply⟩ := run_issued_mrc h hopen hmode hh hitr hidle ha
  refine ⟨t, hrun, hx, ?bit24, ?bit0, hpc, hdscr, hstage, hqueue, hreply⟩
  case bit24 =>
    rw [hx, dscrCp14_eq, dscrView_bit24]
    exact if_pos hh
  case bit0 =>
    rw [hx, dscrCp14_eq, dscrView_halted]
    exact hh

end Sys2Proof.Machine
end
